-- ==== Sys2Proof/Word.lean ====
section
/-!
DEFINITION. The widths of the block: the addressable values and the words of `00_scope.md` rule R7.
-/

namespace Sys2Proof

/-- One byte, the unit in which the model keeps the MDIO space. -/
abbrev Byte := BitVec 8

/-- A PHY or register address, 5 bits (`00_scope.md` R7, `TGT_WIDTH` and `REG_WIDTH`). -/
abbrev Addr := BitVec 5

/-- The data of a transaction, 16 bits (`00_scope.md` R7, `DATA_WIDTH`). -/
abbrev Half := BitVec 16

/-- A command word, 32 bits (`00_scope.md` R7, `CMD_WIDTH`). -/
abbrev Word := BitVec 32

end Sys2Proof
end

