-- ==== Sys2Proof/Config.lean ====
section
/-!
DEFINITION. What an implementation fixes: the shape of the command-word parameters and the constraint the spec puts on
them (`00_scope.md` R7, R8), the open parameters, and the free values.  Everything `opaque` here has no body, so no proof
can see what it is.  The default values of the named parameters stand in `Decode.lean`.
-/

namespace Sys2Proof

/-- Direction of a transaction, the latch `D.OP` (`10_state.md` R28). -/
inductive Op where
  | read
  | write
  deriving DecidableEq, Repr

/-- The six divisor tiers, in the spec's order (`40_clock_divisor.md` R101). -/
inductive Tier where
  | div8 | div16 | div32 | div48 | div64 | div96
  deriving DecidableEq, Repr

/-- Where the lowest bit of each field of the command word stands.  The spec gives positions only as a default
(`92_eei_decisions.md` D2). -/
structure Layout where
  sof  : Nat
  op   : Nat
  tgt  : Nat
  reg  : Nat
  ta   : Nat
  data : Nat
  deriving DecidableEq, Repr

/-- Each field as the pair of its lowest bit and its width (widths: `30_encoding.md` R84). -/
def Layout.fields (l : Layout) : List (Nat × Nat) :=
  [(l.sof, 2), (l.op, 2), (l.tgt, 5), (l.reg, 5), (l.ta, 2), (l.data, 16)]

/-- The fields lie inside the 32 bits and no two share a bit. -/
abbrev Layout.Ok (l : Layout) : Prop :=
  (∀ f ∈ l.fields, f.1 + f.2 ≤ 32) ∧
    l.fields.Pairwise (fun f g => f.1 + f.2 ≤ g.1 ∨ g.1 + g.2 ≤ f.1)

/-- The named parameters of the command word (`00_scope.md` R7): the two start fields (`30_encoding.md` R85), the four
operation codes (R86) and the field positions (R84).  A machine takes them as configuration
(`93_implementation_defined.md` U1, U2). -/
structure Codes where
  sofC22     : BitVec 2
  sofC45     : BitVec 2
  opC22Read  : BitVec 2
  opC22Write : BitVec 2
  opC45Read  : BitVec 2
  opC45Write : BitVec 2
  layout     : Layout
  deriving DecidableEq, Repr

/-- The constraint of `00_scope.md` R8, with a layout in which the fields do not overlap. -/
abbrev Codes.Ok (c : Codes) : Prop :=
  c.opC22Read ≠ c.opC22Write ∧ c.opC45Read ≠ c.opC45Write ∧ c.sofC22 ≠ c.sofC45 ∧ c.layout.Ok

/-- All parameters of the command word: the named ones and `TA_CODE` (`30_encoding.md` R87). -/
structure Params extends Codes where
  taCode : BitVec 2
  deriving DecidableEq, Repr

/-- The constraint of `00_scope.md` R8 on the named parameters; `TA_CODE` is under none. -/
abbrev Params.Ok (p : Params) : Prop := p.toCodes.Ok

/-- `TA_CODE`, an open parameter (`92_eei_decisions.md` D4): free. Log 10. -/
opaque Config.taCode : BitVec 2

/-- The parameters of a machine with these codes: `TA_CODE` is the free constant.  Log 10. -/
def Codes.params (c : Codes) : Params := { c with taCode := Config.taCode }

/-- How many requesters there are beyond the first; open (`92_eei_decisions.md` D1). Log 11. -/
opaque Config.moreRequesters : Nat

/-- `N_REQ`, at least 1 (`00_scope.md` R7). -/
def Config.nReq : Nat := Config.moreRequesters + 1

/-- The number of interrupt sources; open (`92_eei_decisions.md` D23).  At most 32, since `INT_EN` and `INT_PEND` have one bit
a source (`10_state.md` R38, R39) and a register is at most 32 bits wide (`20_memory.md` R51). Log 11. -/
opaque Config.intSources : Fin 33

/-- `N_INT` (`00_scope.md` R7). -/
def Config.nInt : Nat := Config.intSources.val

/-- The six registers of the register block (`10_state.md` R32). -/
inductive Register where
  | ctrl | clkcfg | stat | cmd | intEn | intPend
  deriving DecidableEq, Repr

/-- `REG_BASE`, where the register block stands; open (`92_eei_decisions.md` D10). Log 26. -/
opaque Config.regBase : Nat

/-- The offset of each register from `REG_BASE`; open (`92_eei_decisions.md` D10). Log 26. -/
opaque Config.regOffset : Register → Nat

/-- The bit of `CTRL.MBE` in its register of at most 32 bits; open (`92_eei_decisions.md` D10). Log 26. -/
opaque Config.mbePosition : Fin 32

/-- The lowest bit of the 3-bit `CLKCFG.DIV` in its register; open (`92_eei_decisions.md` D10). Log 26. -/
opaque Config.divPosition : Fin 30

/-- The bit of `STAT.IDLE` in its register; open (`92_eei_decisions.md` D10). Log 26. -/
opaque Config.idlePosition : Fin 32

/-- The address of a register: `REG_BASE` and its offset (`10_state.md` R32).  No rule of the block computes one
(`20_memory.md` R60). Log 26. -/
def Config.registerAddress (r : Register) : Nat := Config.regBase + Config.regOffset r

/-- `PHY_INIT[t][r]`, the initial contents of the simulated MDIO space; open (`92_eei_decisions.md` D27). Log 15. -/
opaque Config.phyInit : Addr → Addr → Half

/-- The n-th free 16-bit value: a PHY's answer (`20_memory.md` R70), the data of an overlapped read (R73). Log 12, 13. -/
opaque Config.freeData : Nat → Half

/-- The n-th free choice: whether an abandoned or overlapped Write is performed (`20_memory.md` R71, R73). Log 13. -/
opaque Config.freeChoice : Nat → Bool

/-- The n-th free choice of the arbiter among the waiting requesters (`42_transaction_engine.md` R135). Log 14. -/
opaque Config.freeGrant : Nat → Nat

/-- `POLL_INTERVAL`, 5 ms (`00_scope.md` R7); no rule of the model reads it (`70_reset_and_hazards.md` R231). Log 25. -/
def Config.pollIntervalMs : Nat := 5

end Sys2Proof
end

