-- ==== Sys2Proof/Syntax.lean ====
section
/-!
DEFINITION. The instructions: one constructor per row of `spec/opcode_table.json`.  The five operations of the request
interface (`30_encoding.md` R81, R95), the four command-word forms (R90) and the six divisor codes (R91).
-/

namespace Sys2Proof

/-- The instructions of the three code spaces. -/
inductive Instr where
  /-- READ of register `reg` of the PHY at `tgt`, `42_transaction_engine.md` R131. -/
  | rd (tgt reg : BitVec 8)
  /-- WRITE of `data`, `42_transaction_engine.md` R132. -/
  | wr (tgt reg : BitVec 8) (data : Half)
  /-- BUS_ENABLE, `43_lifecycle.md` R166. -/
  | ben
  /-- BUS_DISABLE, `43_lifecycle.md` R167. -/
  | bdis
  /-- INITIALIZE with the peripheral clock in Hz and the protocol code, `43_lifecycle.md` R161. -/
  | init (freq : BitVec 32) (proto : BitVec 2)
  /-- Clause 22 read command, `41_command_encoder.md` R112. -/
  | c22Read (tgt reg : Addr)
  /-- Clause 22 write command, `41_command_encoder.md` R113. -/
  | c22Write (tgt reg : Addr) (data : Half)
  /-- Clause 45 read command, `41_command_encoder.md` R114. -/
  | c45Read (tgt reg : Addr)
  /-- Clause 45 write command, `41_command_encoder.md` R115. -/
  | c45Write (tgt reg : Addr) (data : Half)
  /-- Divisor code 0, `40_clock_divisor.md` R101. -/
  | div8
  /-- Divisor code 1, `40_clock_divisor.md` R101. -/
  | div16
  /-- Divisor code 2, `40_clock_divisor.md` R101. -/
  | div32
  /-- Divisor code 3, `40_clock_divisor.md` R101. -/
  | div48
  /-- Divisor code 4, `40_clock_divisor.md` R101. -/
  | div64
  /-- Divisor code 5, `40_clock_divisor.md` R101. -/
  | div96
  deriving DecidableEq, Repr

end Sys2Proof
end

