-- ==== Sys2Proof/WellFormed.lean ====
section
/-!
DEFINITION. The checks an instruction must pass to have a meaning: addresses of 0 to 31 on the 8-bit operands of READ and
WRITE (`30_encoding.md` R82, R93 (b)) and a positive frequency (R93 (e)).  Every other operand is legal at every value of
its width.
-/

namespace Sys2Proof

/-- The instruction's operands are in the range the spec states for them. -/
abbrev Instr.WellFormed : Instr → Prop
  | .rd t r => t.toNat < 32 ∧ r.toNat < 32
  | .wr t r _ => t.toNat < 32 ∧ r.toNat < 32
  | .init f _ => f ≠ 0#32
  | .ben => True
  | .bdis => True
  | .c22Read _ _ => True
  | .c22Write _ _ _ => True
  | .c45Read _ _ => True
  | .c45Write _ _ _ => True
  | .div8 => True
  | .div16 => True
  | .div32 => True
  | .div48 => True
  | .div64 => True
  | .div96 => True

/-- Well-formedness as a test. -/
def Instr.wf : Instr → Bool
  | .rd t r => decide (t.toNat < 32) && decide (r.toNat < 32)
  | .wr t r _ => decide (t.toNat < 32) && decide (r.toNat < 32)
  | .init f _ => decide (f ≠ 0#32)
  | .ben => true
  | .bdis => true
  | .c22Read _ _ => true
  | .c22Write _ _ _ => true
  | .c45Read _ _ => true
  | .c45Write _ _ _ => true
  | .div8 => true
  | .div16 => true
  | .div32 => true
  | .div48 => true
  | .div64 => true
  | .div96 => true

/-- The test decides the property. -/
theorem Instr.wf_iff (i : Instr) : i.wf = true ↔ i.WellFormed := by
  cases i <;> simp [Instr.wf, Instr.WellFormed]

end Sys2Proof
end

