-- ==== Sys2Proof/Decode.lean ====
section
/-!
DEFINITION. The encodings of `30_encoding.md`: the request record (R81), the command word (R84 to R90) and the divisor code
(R91); a decoder that is total on every code and rejects reserved codes by name (R93), and the encoder after it.
-/

namespace Sys2Proof

/-- A request record (`30_encoding.md` R81): the fields in the order of the rule's table. -/
structure Request where
  op    : BitVec 3
  tgt   : BitVec 8
  reg   : BitVec 8
  data  : BitVec 16
  freq  : BitVec 32
  proto : BitVec 2
  deriving DecidableEq, Repr

/-- An encoded thing, in one of the three code spaces (`30_encoding.md` R97). -/
inductive Code where
  | request (r : Request)
  | command (w : Word)
  | divisor (d : BitVec 3)
  deriving DecidableEq, Repr

/-- Why a code stands for no instruction (`30_encoding.md` R93). -/
inductive DecodeError where
  /-- `req_op` of 5, 6 or 7, R93 (a). -/
  | reservedOperation (op : BitVec 3)
  /-- A command word of none of the four forms, R93 (g). -/
  | reservedCommand (w : Word)
  /-- `CLKCFG.DIV` of 6 or 7, R93 (f). -/
  | reservedDivisor (d : BitVec 3)
  deriving DecidableEq, Repr

/-- What decoding answers: an instruction, or the reason there is none. -/
inductive Decoded where
  | instr (i : Instr)
  | reject (e : DecodeError)
  deriving DecidableEq, Repr

/-- The default field positions (`30_encoding.md` R84, decision D2).  UNVERIFIED of any controller.  Log 9. -/
def defaultLayout : Layout :=
  { sof := 30, op := 28, tgt := 23, reg := 18, ta := 16, data := 0 }

/-- The spec's defaults for the named parameters (`00_scope.md` R7: R85 for the start fields, R86 for the operation codes).
The machine takes the codes from its state's configuration; these stand in `State.reset` and in the opcode table's words
only.  UNVERIFIED of any controller.  Log 9. -/
def defaultCodes : Codes :=
  { sofC22 := 1#2, sofC45 := 0#2, opC22Read := 1#2, opC22Write := 2#2, opC45Read := 2#2, opC45Write := 3#2,
    layout := defaultLayout }

/-- The parameters with the spec's defaults and the free `TA_CODE` (`30_encoding.md` R87).  Log 9 and 10. -/
def params : Params := defaultCodes.params

/-- The field value `f` with its lowest bit at `pos` of a command word. -/
def placeField {n : Nat} (pos : Nat) (f : BitVec n) : Word :=
  f.setWidth 32 <<< pos

/-- The `len` bits of `w` from bit `pos` up (`00_scope.md` R10). -/
def getField (pos len : Nat) (w : Word) : BitVec len :=
  w.extractLsb' pos len

/-- `w` with the `n` bits from `pos` up replaced by `f`, every other bit kept. -/
def setField {n : Nat} (pos : Nat) (f : BitVec n) (w : Word) : Word :=
  (w &&& ~~~ placeField pos (BitVec.allOnes n)) ||| placeField pos f

/-- The command word from its fields (`30_encoding.md` R84): SOF, OP, TGT, REG, TA_CODE, DATA. -/
def packCommand (p : Params) (sof opc : BitVec 2) (t r : Addr) (v : Half) : Word :=
  placeField p.layout.sof sof ||| placeField p.layout.op opc ||| placeField p.layout.tgt t |||
    placeField p.layout.reg r ||| placeField p.layout.ta p.taCode ||| placeField p.layout.data v

/-- `ENCODE` (`41_command_encoder.md` R111): the command word of a transaction, `none` for `UnsupportedProtocol` (R116). -/
def encodeTransaction (p : Params) (proto : BitVec 2) (op : Op) (t r : Addr) (v : Half) : Option Word :=
  let data : Half := match op with
    | .read => 0#16
    | .write => v
  if proto = 0#2 then
    let opc := match op with
      | .read => p.opC22Read
      | .write => p.opC22Write
    some (packCommand p p.sofC22 opc t r data)
  else if proto = 1#2 then
    let opc := match op with
      | .read => p.opC45Read
      | .write => p.opC45Write
    some (packCommand p p.sofC45 opc t r data)
  else none

/-- The operation a request record asks for (`30_encoding.md` R81); fields the operation does not use are ignored. -/
def decodeRequest (q : Request) : Decoded :=
  if q.op = 0#3 then .instr (.rd q.tgt q.reg)
  else if q.op = 1#3 then .instr (.wr q.tgt q.reg q.data)
  else if q.op = 2#3 then .instr .ben
  else if q.op = 3#3 then .instr .bdis
  else if q.op = 4#3 then .instr (.init q.freq q.proto)
  else .reject (.reservedOperation q.op)

/-- Command decode (`20_memory.md` R69) with the masks of `30_encoding.md` R90: the start field gives the protocol, the
operation code the direction, a read word has zero DATA, and TA is not read. -/
def decodeCommand (p : Params) (w : Word) : Decoded :=
  let sof := getField p.layout.sof 2 w
  let opc := getField p.layout.op 2 w
  let t := getField p.layout.tgt 5 w
  let r := getField p.layout.reg 5 w
  let v := getField p.layout.data 16 w
  if sof = p.sofC22 then
    if opc = p.opC22Read then
      if v = 0#16 then .instr (.c22Read t r) else .reject (.reservedCommand w)
    else if opc = p.opC22Write then .instr (.c22Write t r v)
    else .reject (.reservedCommand w)
  else if sof = p.sofC45 then
    if opc = p.opC45Read then
      if v = 0#16 then .instr (.c45Read t r) else .reject (.reservedCommand w)
    else if opc = p.opC45Write then .instr (.c45Write t r v)
    else .reject (.reservedCommand w)
  else .reject (.reservedCommand w)

/-- The tier of a divisor code (`30_encoding.md` R91); 6 and 7 are reserved. -/
def decodeDivisor (d : BitVec 3) : Decoded :=
  if d = 0#3 then .instr .div8
  else if d = 1#3 then .instr .div16
  else if d = 2#3 then .instr .div32
  else if d = 3#3 then .instr .div48
  else if d = 4#3 then .instr .div64
  else if d = 5#3 then .instr .div96
  else .reject (.reservedDivisor d)

/-- Decoding, total on every code. -/
def decode (p : Params) : Code → Decoded
  | .request q => decodeRequest q
  | .command w => decodeCommand p w
  | .divisor d => decodeDivisor d

/-- The request record with every field zero but the operation. -/
def bareRequest (op : BitVec 3) : Request :=
  { op := op, tgt := 0#8, reg := 0#8, data := 0#16, freq := 0#32, proto := 0#2 }

/-- The encoder (`30_encoding.md` R81, R90, R91); a request field the operation does not use is zero. -/
def encode (p : Params) : Instr → Code
  | .rd t r => .request { bareRequest 0#3 with tgt := t, reg := r }
  | .wr t r v => .request { bareRequest 1#3 with tgt := t, reg := r, data := v }
  | .ben => .request (bareRequest 2#3)
  | .bdis => .request (bareRequest 3#3)
  | .init f c => .request { bareRequest 4#3 with freq := f, proto := c }
  | .c22Read t r => .command (packCommand p p.sofC22 p.opC22Read t r 0#16)
  | .c22Write t r v => .command (packCommand p p.sofC22 p.opC22Write t r v)
  | .c45Read t r => .command (packCommand p p.sofC45 p.opC45Read t r 0#16)
  | .c45Write t r v => .command (packCommand p p.sofC45 p.opC45Write t r v)
  | .div8 => .divisor 0#3
  | .div16 => .divisor 1#3
  | .div32 => .divisor 2#3
  | .div48 => .divisor 3#3
  | .div64 => .divisor 4#3
  | .div96 => .divisor 5#3

/-- The request record with the fields its operation does not use set to zero (`30_encoding.md` R81). -/
def usedFields (q : Request) : Request :=
  if q.op = 0#3 then { bareRequest 0#3 with tgt := q.tgt, reg := q.reg }
  else if q.op = 1#3 then { bareRequest 1#3 with tgt := q.tgt, reg := q.reg, data := q.data }
  else if q.op = 4#3 then { bareRequest 4#3 with freq := q.freq, proto := q.proto }
  else bareRequest q.op

/-- A request record read from the bits of one number, the fields of `30_encoding.md` R81 in the rule's order from bit 0
up.  The spec's record is "not a packed word": this packing is only the opcode table's numbering.  DESIGN CHOICE, log 23. -/
def requestOfBits (b : BitVec 72) : Request :=
  { op := b.extractLsb' 0 3, tgt := b.extractLsb' 3 8, reg := b.extractLsb' 11 8, data := b.extractLsb' 19 16,
    freq := b.extractLsb' 35 32, proto := b.extractLsb' 67 2 }

/-- Which code the opcode table's bits stand for.  32 bits are a command word; fewer or more are a request, unless the
request's operation is reserved and the bits are those of a divisor code.  The table numbers requests and divisor codes
alike, so a code of 0 to 4 is read as a request.  DESIGN CHOICE, log 23. -/
def tableCode (nbits w : Nat) : Code :=
  if nbits = 32 then .command (BitVec.ofNat 32 w)
  else
    match decodeRequest (requestOfBits (BitVec.ofNat 72 w)) with
    | .instr _ => .request (requestOfBits (BitVec.ofNat 72 w))
    | .reject _ =>
      if w = 5 then .divisor (BitVec.ofNat 3 w) else .request (requestOfBits (BitVec.ofNat 72 w))

/-- The instruction the decoder reads from bits numbered as the opcode table numbers them; the table's command words are
those of the default codes (`30_encoding.md` R97). -/
def decodeTableWord (nbits w : Nat) : Option Instr :=
  match decode params (tableCode nbits w) with
  | .instr i => some i
  | .reject _ => none

end Sys2Proof
end

