-- ==== Sys2Proof/Machine/State.lean ====
section
/-!
DEFINITION. The state of one instance of the block and of its environment (`10_state.md` R20), the reasons a step can stop,
and the state after reset (R43).
-/

namespace Sys2Proof.Machine

/-- The lifecycle register `LIFE` (`10_state.md` R21). -/
inductive Life where
  | uninit | ready | failed
  deriving DecidableEq, Repr

/-- The arbiter state `GUARD` (`10_state.md` R23). -/
inductive Guard where
  | available | held
  deriving DecidableEq, Repr

/-- The engine's state register `FSM` (`10_state.md` R24). -/
inductive Fsm where
  | idle | check | enable | issue | poll | wait | capture | release
  deriving DecidableEq, Repr

/-- A response status, also the values of the latch `ERR` (`30_encoding.md` R83, `60_exceptions.md` R180). -/
inductive Status where
  | ok | unsupportedProtocol | unsupportedClock | timeout
  deriving DecidableEq, Repr

/-- A response: a status, and 16 bits of data after a successful READ only (`30_encoding.md` R83). -/
structure Response where
  status : Status
  data   : Option Half
  deriving DecidableEq, Repr

/-- The operand latches of the transaction in flight: `D.TGT`, `D.REG`, `D.OP`, `D.WDATA` (`10_state.md` R26 to R28). -/
structure Desc where
  tgt   : Addr
  reg   : Addr
  op    : Op
  wdata : Half
  deriving DecidableEq, Repr

/-- The controller's single command slot `SLOT`; the flag is *overlapped* (`10_state.md` R41). -/
inductive Slot where
  | empty
  | full (w : Word) (ov : Bool)
  deriving DecidableEq, Repr

/-- Which environment stands behind the register block: the general one, or one of the two reference environments
(`20_memory.md` R75). -/
inductive Env where
  | general | sim | simStuck
  deriving DecidableEq, Repr

/-- One turn of one agent (`00_scope.md` R13).  No turn changes the true peripheral clock `pclk`, which the spec leaves to the
platform (`43_lifecycle.md` R165): DESIGN CHOICE, log 30. -/
inductive Turn where
  /-- Requester `q` submits the request record (`42_transaction_engine.md` R133). -/
  | submit (q : Nat) (req : Request)
  /-- The engine takes its next transition; in `F_IDLE` the arbiter chooses requester `q` (R134, R135). -/
  | engine (q : Nat)
  /-- The lifecycle controller serves requester `q` (`43_lifecycle.md` R160 to R168). -/
  | lifecycle (q : Nat)
  /-- The controller takes its completion step (`20_memory.md` R67, R68, R73). -/
  | controller
  /-- The controller's clock generator divides by the code in `CLKCFG.DIV` (`10_state.md` R34). -/
  | clockGenerator
  /-- Requester `q` takes its response (`10_state.md` R31). -/
  | takeResponse (q : Nat)
  /-- The controller sets bits of `INT_PEND` (`10_state.md` R39). -/
  | raiseInterrupts (bits : Word)
  deriving DecidableEq, Repr

/-- The MDIO space: (address, byte) pairs with rising addresses; the form is `Memory.wf` in `Ops.lean`. -/
abbrev Memory := List Host.Cell

/-- A fault. The block's own errors are no faults: they are responses, in a next state (`60_exceptions.md` R180). -/
inductive Fault where
  /-- Raised by the controller's turn on a slot word that no command form matches (`20_memory.md` R69; U15: "cannot arise
  from the block").  Safe: the machine stops where hardware does something unspecified.  Log 20. -/
  | undefinedCommand (w : Word)
  deriving DecidableEq, Repr

/-- A refusal: an input the spec gives no meaning (`93_implementation_defined.md`, treatment `refuse`). All are safe: the
machine stops where hardware does something the spec does not state. -/
inductive Refusal where
  /-- An instruction the model has no meaning for; raised by no arm of `exec`. -/
  | notModelled (mnemonic : String)
  /-- `req_op` of 5, 6 or 7 (U10), raised when it is submitted or served. Log 18. -/
  | reservedOperation (op : BitVec 3)
  /-- A target or register address of 32 or more (U4), raised by READ and WRITE and by their submission. Log 18. -/
  | addressOutOfRange
  /-- A frequency of 0 (U5), raised by INITIALIZE and by its submission. Log 18. -/
  | zeroFrequency
  /-- READ, WRITE, BUS_ENABLE or BUS_DISABLE while LIFE is not READY (U12). Log 18. -/
  | notReady
  /-- INITIALIZE while LIFE is not UNINIT (U12). Log 18. -/
  | alreadyInitialised
  /-- A submission by a requester whose mailboxes are not both empty (`10_state.md` R31). Log 19. -/
  | mailboxBusy
  /-- A submission by a requester outside 0 to N_REQ - 1 (`10_state.md` R31). Log 19. -/
  | noSuchRequester
  /-- A BUS_DISABLE submitted or served in SIM while a transaction is in flight (`20_memory.md` R75 (c): none is issued
  then), raised by its submission and by the lifecycle controller's turn. Log 17. -/
  | disableInFlight
  /-- The clock generator's turn on a divisor code of 6 or 7 once READY; the spec says only that they are reserved and never
  written by the block (`30_encoding.md` R93 (f), U9).  DESIGN CHOICE, log 31. -/
  | reservedDivisor (d : BitVec 3)
  deriving DecidableEq, Repr

/-- The state.  Each field cites the rule that names it; INVENTORY.md lists them with their reset values. -/
structure State where
  /-- `LIFE`, `10_state.md` R21. -/
  life     : Life
  /-- `PROTO`, R22. -/
  proto    : BitVec 2
  /-- `GUARD`, R23. -/
  guard    : Guard
  /-- `OWNER`, R23. -/
  owner    : Nat
  /-- `FSM`, R24. -/
  fsm      : Fsm
  /-- `D.TGT`, `D.REG`, `D.OP`, `D.WDATA`, R26 to R28. -/
  d        : Desc
  /-- `POLLS`, R29: a count, not a word software sees. -/
  polls    : Nat
  /-- `RDATA`, R30. -/
  rdata    : Half
  /-- `ERR`, R30. -/
  err      : Status
  /-- `PEND[r]`, R31: the requesters that have a request, by rising identifier. -/
  pend     : List (Nat × Request)
  /-- `RESP[r]`, R31: the requesters that have a response, by rising identifier. -/
  resp     : List (Nat × Response)
  /-- `CTRL.MBE`, R33. -/
  mbe      : Bool
  /-- `CLKCFG.DIV`, R34. -/
  div      : BitVec 3
  /-- `STAT.IDLE`, R35. -/
  idle     : Bool
  /-- `CMD`, R36 and R37. -/
  cmd      : Word
  /-- `INT_EN`, R38: bit `i` is source `i`; the `N_INT` low bits of the word exist.  Log 24. -/
  intEn    : Word
  /-- `INT_PEND`, R39: bit `i` is source `i`; the `N_INT` low bits of the word exist.  Log 24. -/
  intPend  : Word
  /-- `SLOT`, R41 (environment). -/
  slot     : Slot
  /-- `PHY[t][r]`, R42 (environment). -/
  phy      : Memory
  /-- Which environment, `20_memory.md` R75.  Log 17. -/
  env      : Env
  /-- Configuration: the start fields, operation codes and field positions of the command word (`30_encoding.md` R84 to
  R86).  No step changes it.  Log 9. -/
  codes    : Codes
  /-- The true peripheral clock in Hz, `43_lifecycle.md` R165.  No step changes it.  Log 4 and 30. -/
  pclk     : BitVec 32
  /-- The MDIO clock in Hz, `70_reset_and_hazards.md` R232.  Log 4. -/
  mdc      : Nat
  /-- The model's own: the turns to come (`00_scope.md` R13).  Log 1. -/
  agenda   : List Turn
  /-- The model's own: the requester whose operation this step executes.  Log 2. -/
  cur      : Nat
  /-- The model's own: how many free values have been drawn.  Log 12. -/
  draws    : Nat
  deriving DecidableEq, Repr

/-- The state after reset (`10_state.md` R43).  The entries R43 leaves unspecified, and the model's own fields, are DESIGN
CHOICE (log 5); `idle` is the spec's decision D19 (log 7).  The codes are the spec's defaults, UNVERIFIED (log 9): a machine
with other codes `c` starts from `{ State.reset with codes := c }`. -/
def State.reset : State :=
  { life := .uninit, proto := 0#2, guard := .available, owner := 0, fsm := .idle,
    d := { tgt := 0#5, reg := 0#5, op := .read, wdata := 0#16 }, polls := 0, rdata := 0#16, err := .ok,
    pend := [], resp := [], mbe := false, div := 0#3, idle := true, cmd := 0#32, intEn := 0#32, intPend := 0#32,
    slot := .empty, phy := [], env := .general, codes := defaultCodes, pclk := 0#32, mdc := 0, agenda := [], cur := 0, draws := 0 }

end Sys2Proof.Machine
end

