-- ==== Sys2Proof/Machine/Ops.lean ====
section
/-!
DEFINITION. The named operations over tables, the MDIO space and the registers; the write of the command register with its
side effect; the completion of a command; raising an error and returning from it.
-/

namespace Sys2Proof.Machine

/-! ## Tables keyed by a number -/

/-- What a table lists under `a`. -/
def tableFind {α : Type} : List (Nat × α) → Nat → Option α
  | [], _ => none
  | (k, v) :: l, a => if k = a then some v else tableFind l a

/-- The table with `v` listed under `a`, keys kept rising. -/
def tablePut {α : Type} : List (Nat × α) → Nat → α → List (Nat × α)
  | [], a, v => [(a, v)]
  | (k, u) :: l, a, v =>
    if a < k then (a, v) :: (k, u) :: l
    else if a = k then (a, v) :: l
    else (k, u) :: tablePut l a v

/-- The table with nothing listed under `a`. -/
def tableErase {α : Type} (l : List (Nat × α)) (a : Nat) : List (Nat × α) :=
  l.filter (fun e => e.1 != a)

/-- Keys strictly rising. -/
abbrev tableSorted {α : Type} (l : List (Nat × α)) : Prop :=
  l.Pairwise (fun e f => e.1 < f.1)

/-! ## The MDIO space (`20_memory.md` R52, R75) -/

/-- Number of bytes of the MDIO space: 1024 locations of 16 bits. -/
def mdioBytes : Nat := 2048

/-- Address of the low byte of location `{t, r}`; the high byte follows.  No byte order is observable (`20_memory.md` R54).
DESIGN CHOICE, log 15. -/
def phyAddr (t r : Addr) : Nat := 2 * (32 * t.toNat + r.toNat)

/-- The canonical form: rising addresses, all inside the space.  An unlisted byte has not been written. -/
abbrev Memory.wf (m : Memory) : Prop :=
  tableSorted m ∧ ∀ e ∈ m, e.1 < mdioBytes

/-- The byte at an address, `none` where nothing has written it. -/
def readByte (m : Memory) (a : Nat) : Option Byte := tableFind m a

/-- Write one byte. -/
def writeByte (m : Memory) (a : Nat) (b : Byte) : Memory := tablePut m a b

/-- The 16-bit content of `{t, r}`; where nothing has been written, `PHY_INIT` (`20_memory.md` R75 (a)).  Log 15. -/
def phyRead (m : Memory) (t r : Addr) : Half :=
  match readByte m (phyAddr t r), readByte m (phyAddr t r + 1) with
  | some lo, some hi => hi ++ lo
  | _, _ => Config.phyInit t r

/-- Set the 16-bit content of `{t, r}`. -/
def phyWrite (m : Memory) (t r : Addr) (v : Half) : Memory :=
  writeByte (writeByte m (phyAddr t r) (v.extractLsb' 0 8)) (phyAddr t r + 1) (v.extractLsb' 8 8)

/-! ## Register updates -/

/-- `LIFE <- l` (`43_lifecycle.md` R163). -/
def setLife (l : Life) (s : State) : State := { s with life := l }

/-- `PROTO <- p` (`10_state.md` R22). -/
def setProto (p : BitVec 2) (s : State) : State := { s with proto := p }

/-- `FSM <- f` (`00_scope.md` R12). -/
def goto (f : Fsm) (s : State) : State := { s with fsm := f }

/-- `ERR <- e` (`10_state.md` R30). -/
def setErr (e : Status) (s : State) : State := { s with err := e }

/-- `RDATA <- v` (`10_state.md` R30). -/
def setRdata (v : Half) (s : State) : State := { s with rdata := v }

/-- `POLLS <- POLLS + 1` (`10_state.md` R29). -/
def countPoll (s : State) : State := { s with polls := s.polls + 1 }

/-- `CTRL.MBE <- b`, that bit alone (`20_memory.md` R58; decision D22, log 8). -/
def setMbe (b : Bool) (s : State) : State := { s with mbe := b }

/-- `INT_EN <- 0; INT_PEND <- 0`, all `N_INT` bits (`43_lifecycle.md` R161). -/
def clearInterrupts (s : State) : State := { s with intEn := 0#32, intPend := 0#32 }

/-- The bits of `INT_EN` and `INT_PEND` that exist: one a source, `N_INT` of them (`20_memory.md` R56).  Log 24. -/
def sourceMask : Word := BitVec.ofNat 32 (2 ^ Config.nInt - 1)

/-- The controller sets bits of `INT_PEND` (`10_state.md` R39); bits beyond `N_INT` do not exist.  Log 24. -/
def raiseInterrupts (bits : Word) (s : State) : State := { s with intPend := s.intPend ||| (bits &&& sourceMask) }

/-- `SLOT <- x` (`10_state.md` R41). -/
def setSlot (x : Slot) (s : State) : State := { s with slot := x }

/-- `STAT.IDLE <- b`, by the controller only (`10_state.md` R35). -/
def setIdle (b : Bool) (s : State) : State := { s with idle := b }

/-- `CMD <- w`, the whole word (`20_memory.md` R57). -/
def setCmd (w : Word) (s : State) : State := { s with cmd := w }

/-- `CLKCFG.DIV` and the MDIO clock that follows from it. -/
def setClock (d : BitVec 3) (hz : Nat) (s : State) : State := { s with div := d, mdc := hz }

/-- The MDIO space of the environment. -/
def setPhy (m : Memory) (s : State) : State := { s with phy := m }

/-- A free value has been drawn. -/
def countDraw (s : State) : State := { s with draws := s.draws + 1 }

/-- The turns to come. -/
def setAgenda (l : List Turn) (s : State) : State := { s with agenda := l }

/-- The requester whose operation is executed. -/
def serving (q : Nat) (s : State) : State := { s with cur := q }

/-- `PEND[q] <- req` (`42_transaction_engine.md` R133). -/
def post (q : Nat) (req : Request) (s : State) : State := { s with pend := tablePut s.pend q req }

/-- `respond(q, v)`: the block answers by clearing `PEND[q]` and writing `RESP[q]` (`10_state.md` R31). -/
def respond (q : Nat) (v : Response) (s : State) : State :=
  { s with pend := tableErase s.pend q, resp := tablePut s.resp q v }

/-- The requester takes its response by clearing `RESP[q]` (`10_state.md` R31). -/
def takeResponse (q : Nat) (s : State) : State := { s with resp := tableErase s.resp q }

/-- The latches of the acquire step (`42_transaction_engine.md` R134): the guard, its owner, the operands, no poll made. -/
def takeGuard (q : Nat) (d : Desc) (s : State) : State :=
  { s with guard := .held, owner := q, d := d, polls := 0 }

/-- `GUARD <- AVAILABLE` (`42_transaction_engine.md` R143). -/
def freeGuard (s : State) : State := { s with guard := .available }

/-! ## The controller (`20_memory.md` section 5) -/

/-- `CMD.DATA` (`10_state.md` R37). -/
def cmdData (s : State) : Half := getField s.codes.layout.data 16 s.cmd

/-- `CMD.DATA <- v`, every other bit of `CMD` kept (`20_memory.md` R67). -/
def setCmdData (v : Half) (s : State) : State := setCmd (setField s.codes.layout.data v s.cmd) s

/-- `MemRead(MDIO, {t, r}, 2)`: any value in the general environment (`20_memory.md` R70), the content of the location in
the reference environments (R75).  Log 12. -/
def memRead (t r : Addr) (s : State) : Half :=
  match s.env with
  | .general => Config.freeData s.draws
  | .sim | .simStuck => phyRead s.phy t r

/-- The draw `memRead` has made. -/
def afterMemRead (s : State) : State :=
  match s.env with
  | .general => countDraw s
  | .sim | .simStuck => s

/-- `MemWrite(MDIO, {t, r}, 2, v)` (`20_memory.md` R70, R75): the location holds what was handed to it last.  Log 16. -/
def memWrite (t r : Addr) (v : Half) (s : State) : State := setPhy (phyWrite s.phy t r v) s

/-- A Write whose performance is free (`20_memory.md` R71, R73).  Log 13. -/
def maybeWrite (t r : Addr) (v : Half) (s : State) : State :=
  countDraw (if Config.freeChoice s.draws then memWrite t r v s else s)

/-- What becomes of the command that is written over: a Write is performed or not, freely, a Read is dropped
(`20_memory.md` R71).  A word of no form, which R69 gives no meaning and which cannot arise (`93_implementation_defined.md`
U15), is dropped too: DESIGN CHOICE, log 20. -/
def abandonCommand (w : Word) (s : State) : State :=
  match decodeCommand s.codes.params w with
  | .instr (.c22Write t r v) => maybeWrite t r v s
  | .instr (.c45Write t r v) => maybeWrite t r v s
  | _ => s

/-- The write `CMD <- w` with its side effect (`20_memory.md` R66): idle falls, the slot is filled, marked overlapped if it
was full (R71) or the bus is disabled (R72).  The fall of idle in this step is decision D13, log 6. -/
def startCommand (w : Word) (s : State) : State :=
  match s.slot with
  | .empty => setSlot (.full w (!s.mbe)) (setIdle false (setCmd w s))
  | .full old _ => setSlot (.full w true) (setIdle false (setCmd w (abandonCommand old s)))

/-- `STAT.IDLE <- 1; SLOT <- empty` (`20_memory.md` R67, R73). -/
def finishCommand (s : State) : State := setSlot .empty (setIdle true s)

/-- A Read's data at completion: the PHY's answer (`20_memory.md` R67), or any value if overlapped (R73). -/
def completeRead (t r : Addr) (ov : Bool) (s : State) : State :=
  finishCommand
    (if ov then setCmdData (Config.freeData s.draws) (countDraw s)
     else setCmdData (memRead t r s) (afterMemRead s))

/-- A Write at completion: performed (`20_memory.md` R67), or freely performed or not if overlapped (R73). -/
def completeWrite (t r : Addr) (v : Half) (ov : Bool) (s : State) : State :=
  finishCommand (if ov then maybeWrite t r v s else memWrite t r v s)

/-- The mark a command in the slot gets when the bus is disabled (`20_memory.md` R72). -/
def markSlot : Slot → Slot
  | .empty => .empty
  | .full w _ => .full w true

/-! ## Errors (`60_exceptions.md` section 1) -/

/-- Error entry, `raise E`: `ERR <- E; FSM <- F_RELEASE` (`60_exceptions.md` R184).  Nothing is saved. -/
def raiseError (e : Status) (s : State) : State := goto .release (setErr e s)

/-- The response of the release step (`42_transaction_engine.md` R143). -/
def releaseResponse (s : State) : Response :=
  match s.err with
  | .ok =>
    match s.d.op with
    | .read => { status := .ok, data := some s.rdata }
    | .write => { status := .ok, data := none }
  | e => { status := e, data := none }

/-- The return, the same after an error and after a success (`42_transaction_engine.md` R143, `60_exceptions.md` R189).
`OWNER` and the latches `D`, `POLLS`, `RDATA` and `ERR` keep their last values.  The spec leaves `OWNER`, `RDATA` and `ERR`
unspecified outside a transaction (`10_state.md` R23, R30) and is silent on the others: DESIGN CHOICE, log 29. -/
def releaseGuard (s : State) : State :=
  goto .idle (freeGuard (respond s.owner (releaseResponse s) s))

end Sys2Proof.Machine
end

