-- ==== Sys2Proof/Machine/Operands.lean ====
section
/-!
DEFINITION. Operands: the assembly of a request's addresses (`30_encoding.md` R82), the checks on operands (R93), and the
Clock Divisor Selector that turns INITIALIZE's frequency into a tier (`40_clock_divisor.md`).
-/

namespace Sys2Proof.Machine

/-- The low five bits of an 8-bit address operand (`30_encoding.md` R82). -/
def lowAddr (x : BitVec 8) : Addr := x.setWidth 5

/-- An 8-bit operand that shows a 5-bit address. -/
def wideAddr (x : Addr) : BitVec 8 := x.setWidth 8

/-- Both addresses of a READ or WRITE are 0 to 31 (`30_encoding.md` R82). -/
def addressRefusal (t r : BitVec 8) : Option Refusal :=
  if t.toNat < 32 ∧ r.toNat < 32 then none else some .addressOutOfRange

/-- Why the operands of an instruction are refused, if they are (`30_encoding.md` R93). -/
def operandRefusal (i : Instr) : Option Refusal :=
  match i with
  | .rd t r => addressRefusal t r
  | .wr t r _ => addressRefusal t r
  | .ben => none
  | .bdis => none
  | .init f _ => if f = 0#32 then some .zeroFrequency else none
  | .c22Read _ _ => none
  | .c22Write _ _ _ => none
  | .c45Read _ _ => none
  | .c45Write _ _ _ => none
  | .div8 => none
  | .div16 => none
  | .div32 => none
  | .div48 => none
  | .div64 => none
  | .div96 => none

/-- READ, WRITE, BUS_ENABLE and BUS_DISABLE have a meaning only when READY (`43_lifecycle.md` R170). -/
def readyRefusal (l : Life) : Option Refusal := if l = .ready then none else some .notReady

/-- INITIALIZE has a meaning only when UNINIT (`43_lifecycle.md` R171). -/
def uninitRefusal (l : Life) : Option Refusal := if l = .uninit then none else some .alreadyInitialised

/-- Whether `LIFE` lets an instruction have a meaning; the command words and divisor codes are not requests. -/
def lifeRefusal (i : Instr) (l : Life) : Option Refusal :=
  match i with
  | .rd _ _ => readyRefusal l
  | .wr _ _ _ => readyRefusal l
  | .ben => readyRefusal l
  | .bdis => readyRefusal l
  | .init _ _ => uninitRefusal l
  | .c22Read _ _ => none
  | .c22Write _ _ _ => none
  | .c45Read _ _ => none
  | .c45Write _ _ _ => none
  | .div8 => none
  | .div16 => none
  | .div32 => none
  | .div48 => none
  | .div64 => none
  | .div96 => none

/-- The refusal an operation meets, `LIFE` first. -/
def refusal (i : Instr) (l : Life) : Option Refusal :=
  match lifeRefusal i l with
  | some e => some e
  | none => operandRefusal i

/-! ## The Clock Divisor Selector -/

/-- Inclusive upper bound of a tier in Hz (`40_clock_divisor.md` R101, `00_scope.md` R9). -/
def tierBound : Tier → Nat
  | .div8 => 20000000
  | .div16 => 40000000
  | .div32 => 80000000
  | .div48 => 120000000
  | .div64 => 160000000
  | .div96 => 240000000

/-- The divisor of a tier (`40_clock_divisor.md` R101). -/
def tierDivisor : Tier → Nat
  | .div8 => 8
  | .div16 => 16
  | .div32 => 32
  | .div48 => 48
  | .div64 => 64
  | .div96 => 96

/-- The code of a tier in `CLKCFG.DIV` (`30_encoding.md` R91, decision D6). -/
def tierCode : Tier → BitVec 3
  | .div8 => 0#3
  | .div16 => 1#3
  | .div32 => 2#3
  | .div48 => 3#3
  | .div64 => 4#3
  | .div96 => 5#3

/-- `DIVSEL(f)` (`40_clock_divisor.md` R102): the first tier whose bound is not below `f`, `none` for `UnsupportedClock`. -/
def divsel (f : BitVec 32) : Option Tier :=
  if f.toNat ≤ tierBound .div8 then some .div8
  else if f.toNat ≤ tierBound .div16 then some .div16
  else if f.toNat ≤ tierBound .div32 then some .div32
  else if f.toNat ≤ tierBound .div48 then some .div48
  else if f.toNat ≤ tierBound .div64 then some .div64
  else if f.toNat ≤ tierBound .div96 then some .div96
  else none

/-- The MDIO clock of a tier, whole Hz (`70_reset_and_hazards.md` R232). -/
def mdioClock (pclk : BitVec 32) (x : Tier) : Nat := pclk.toNat / tierDivisor x

/-- `CLKCFG.DIV <- code`; the controller's generator then divides the peripheral clock by the tier's divisor
(`40_clock_divisor.md` R104, `70_reset_and_hazards.md` R232).  Log 4. -/
def programDivisor (x : Tier) (s : State) : State := setClock (tierCode x) (mdioClock s.pclk x) s

end Sys2Proof.Machine
end

