-- ==== Sys2Proof/Machine/Flags.lean ====
section
/-!
DEFINITION. The tests the machine makes on its flags: the recognised protocols, the poll budget, whether a command can
complete.  No flag is computed by arithmetic (`40_clock_divisor.md` R104).
-/

namespace Sys2Proof.Machine

/-- `PROTO` is one of the two recognised codes (`30_encoding.md` R92). -/
def recognised (p : BitVec 2) : Bool := p = 0#2 || p = 1#2

/-- `POLL_BUDGET` (`00_scope.md` R7). -/
def pollBudget : Nat := 50

/-- The poll loop's exit test in `F_WAIT` (`42_transaction_engine.md` R140). -/
def budgetSpent (s : State) : Bool := s.polls = pollBudget

/-- A command is in the slot. -/
def slotFull : Slot → Bool
  | .empty => false
  | .full _ _ => true

/-- The completion step is enabled: a command in the slot and the bus enabled (`20_memory.md` R67, R68, R73). -/
def completionEnabled (s : State) : Bool := slotFull s.slot && s.mbe

/-- In SIM a command is completed before the engine's next poll (`20_memory.md` R75 (b)). -/
def simCompletes (s : State) : Bool :=
  decide (s.env = .sim) && decide (s.fsm = .poll) && completionEnabled s

/-- In SIM no BUS_DISABLE is issued while a transaction is in flight (`20_memory.md` R75 (c)).  Log 17. -/
def simForbidsDisable (s : State) : Bool := decide (s.env = .sim) && decide (s.fsm ≠ .idle)

/-- Whether an operation is a BUS_DISABLE that R75 (c) excludes. -/
def disableForbidden (i : Instr) (s : State) : Bool := decide (i = .bdis) && simForbidsDisable s

/-- The numeric code of a status (`60_exceptions.md` R180, decision D9). -/
def statusCode : Status → BitVec 2
  | .ok => 0#2
  | .unsupportedProtocol => 1#2
  | .unsupportedClock => 2#2
  | .timeout => 3#2

end Sys2Proof.Machine
end

