-- ==== Sys2Proof/Machine/Agents.lean ====
section
/-!
DEFINITION. Who moves next, and what instruction that turn fetches: the request in a mailbox, the latched transaction, the
word in the controller's slot, the code in `CLKCFG.DIV`.  Interleaving: `00_scope.md` R13, log 1.
-/

namespace Sys2Proof.Machine

/-- What a turn comes to: an instruction to execute in a state, or an outcome without one. -/
inductive Fetched where
  | run (i : Instr) (s : State)
  | done (o : Host.Outcome State Fault Refusal)

/-- The turn passes: the agent has no enabled step.  Log 21. -/
def passTurn (s : State) : Fetched := .done (.next s)

/-- Submission (`42_transaction_engine.md` R133): both mailboxes empty and the request well-formed and meaningful now; in SIM
no BUS_DISABLE in flight (`20_memory.md` R75 (c)). -/
def submit (q : Nat) (req : Request) (s : State) : Host.Outcome State Fault Refusal :=
  if ¬ q < Config.nReq then .refused .noSuchRequester
  else if (tableFind s.pend q).isSome || (tableFind s.resp q).isSome then .refused .mailboxBusy
  else
    match decode s.codes.params (.request req) with
    | .reject _ => .refused (.reservedOperation req.op)
    | .instr i =>
      match refusal i s.life with
      | some e => .refused e
      | none => if disableForbidden i s then .refused .disableInFlight else .next (post q req s)

/-- The READ or WRITE in flight, as the acquire step latched it (`42_transaction_engine.md` R134). -/
def latched (s : State) : Instr :=
  match s.d.op with
  | .read => .rd (wideAddr s.d.tgt) (wideAddr s.d.reg)
  | .write => .wr (wideAddr s.d.tgt) (wideAddr s.d.reg) s.d.wdata

/-- The engine's turn: in `F_IDLE` the chosen requester's READ or WRITE (`42_transaction_engine.md` R134), elsewhere the
transaction in flight, for its owner. -/
def fetchEngine (q : Nat) (s : State) : Fetched :=
  if s.fsm = .idle then
    match tableFind s.pend q with
    | none => passTurn s
    | some req =>
      match decode s.codes.params (.request req) with
      | .instr (.rd t r) => .run (.rd t r) (serving q s)
      | .instr (.wr t r v) => .run (.wr t r v) (serving q s)
      | _ => passTurn s
  else .run (latched s) (serving s.owner s)

/-- The lifecycle controller's turn: requester `q`'s INITIALIZE, BUS_ENABLE or BUS_DISABLE (`43_lifecycle.md`).  In SIM a
BUS_DISABLE in flight is refused (`20_memory.md` R75 (c)): such a run is none of SIM's.  Log 17. -/
def fetchLifecycle (q : Nat) (s : State) : Fetched :=
  match tableFind s.pend q with
  | none => passTurn s
  | some req =>
    match decode s.codes.params (.request req) with
    | .instr .ben => .run .ben (serving q s)
    | .instr .bdis => if simForbidsDisable s then .done (.refused .disableInFlight) else .run .bdis (serving q s)
    | .instr (.init f p) => .run (.init f p) (serving q s)
    | .instr _ => passTurn s
    | .reject _ => .done (.refused (.reservedOperation req.op))

/-- The controller's turn: the command in its slot, if the completion step is enabled (`20_memory.md` R67, R68).  A word of
no form cannot arise (R69, U15): log 20. -/
def fetchController (s : State) : Fetched :=
  match s.slot with
  | .empty => passTurn s
  | .full w _ =>
    if s.mbe then
      match decode s.codes.params (.command w) with
      | .instr i => .run i s
      | .reject _ => .done (.fault (.undefinedCommand w))
    else passTurn s

/-- The clock generator's turn: the code in `CLKCFG.DIV`, which nothing reads before INITIALIZE (`10_state.md` R34).  On a
reserved code, 6 or 7, which the block never writes (`30_encoding.md` R93 (f)), the spec gives the generator no behaviour and
no treatment: the refusal is the model's own, DESIGN CHOICE, log 31. -/
def fetchClock (s : State) : Fetched :=
  if s.life = .ready then
    match decode s.codes.params (.divisor s.div) with
    | .instr i => .run i s
    | .reject _ => .done (.refused (.reservedDivisor s.div))
  else passTurn s

/-- What an agent does with its turn.  In SIM-STUCK the controller never completes (`20_memory.md` R75). -/
def takeTurn (t : Turn) (s : State) : Fetched :=
  match t with
  | .submit q req => .done (submit q req s)
  | .engine q => fetchEngine q s
  | .lifecycle q => fetchLifecycle q s
  | .controller => if s.env = .simStuck then passTurn s else fetchController s
  | .clockGenerator => fetchClock s
  | .takeResponse q => passTurn (takeResponse q s)
  | .raiseInterrupts bits => passTurn (raiseInterrupts bits s)

/-- A pending READ or WRITE: `req_op` 0 or 1 (`30_encoding.md` R81). -/
def isTransfer (req : Request) : Bool := req.op = 0#3 || req.op = 1#3

/-- A pending BUS_ENABLE, BUS_DISABLE or INITIALIZE: `req_op` 2, 3 or 4 (`30_encoding.md` R81). -/
def isLifecycle (req : Request) : Bool := req.op = 2#3 || req.op = 3#3 || req.op = 4#3

/-- The requesters the arbiter may choose from (`42_transaction_engine.md` R134). -/
def waitingTransfers (s : State) : List Nat := (s.pend.filter (fun e => isTransfer e.2)).map Prod.fst

/-- The requesters waiting for the lifecycle controller. -/
def waitingLifecycle (s : State) : List Nat := (s.pend.filter (fun e => isLifecycle e.2)).map Prod.fst

/-- The requester the arbiter grants: freely one of those that wait (`42_transaction_engine.md` R135, log 14). -/
def freeGrant (l : List Nat) (n : Nat) : Nat := l.getD (Config.freeGrant n % l.length) 0

/-- The turn the block takes when the agenda is empty: an operation of the lifecycle controller, answered at once
(`70_reset_and_hazards.md` R235), else the engine's next transition (R231 (a)), else none (R211).  Log 1. -/
def ownTurn (s : State) : Option Turn × State :=
  match waitingLifecycle s with
  | q :: _ => (some (.lifecycle q), s)
  | [] =>
    if s.fsm = .idle then
      match waitingTransfers s with
      | [] => (none, s)
      | [q] => (some (.engine q), s)
      | q :: q' :: l => (some (.engine (freeGrant (q :: q' :: l) s.draws)), countDraw s)
    else (some (.engine s.owner), s)

/-- The next turn: in SIM the completion before the engine's poll (`20_memory.md` R75 (b)), else the agenda's first turn,
else the block's own. -/
def fetch (s : State) : Fetched :=
  if simCompletes s then fetchController s
  else
    match s.agenda with
    | t :: rest => takeTurn t (setAgenda rest s)
    | [] =>
      match ownTurn s with
      | (some t, s') => takeTurn t s'
      | (none, s') => passTurn s'

/-- The state with a code where the machine fetches next, and all that its execution takes: a request in requester 0's
mailbox with the turn that serves it, a command in the slot with the bus enabled, a divisor code in `CLKCFG.DIV`.  Log 23. -/
def placeCode (c : Code) (s : State) : State :=
  match c with
  | .request r =>
    { s with
      life := if r.op = 4#3 then .uninit else .ready, guard := .available, fsm := .idle,
      pend := tablePut s.pend 0 r, resp := tableErase s.resp 0,
      agenda := (if r.op = 0#3 ∨ r.op = 1#3 then .engine 0 else .lifecycle 0) :: s.agenda }
  | .command w =>
    { s with
      mbe := true, idle := false, cmd := w, slot := .full w false,
      env := if s.env = .simStuck then .general else s.env, agenda := .controller :: s.agenda }
  | .divisor d => { s with life := .ready, div := d, env := .general, agenda := .clockGenerator :: s.agenda }

end Sys2Proof.Machine
end

