-- ==== Sys2Proof/Machine/Command.lean ====
section
/-!
DEFINITION. The four command-word forms (`41_command_encoder.md` R112 to R115) as the controller executes them out of its
slot: the completion step of `20_memory.md` R67 and, for an overlapped slot, R73.
-/

namespace Sys2Proof.Machine

/-- The completion step: `f` is what the command does, told whether the slot is overlapped.  With the slot empty or the bus
disabled the step is not enabled and the controller waits (`20_memory.md` R68).  Log 28. -/
def complete (f : Bool → State → State) (s : State) : State :=
  match s.slot with
  | .empty => s
  | .full _ ov => if s.mbe then f ov s else s

/-- A Clause 22 read command (`41_command_encoder.md` R112) carried out (`20_memory.md` R67, R73). -/
def execC22Read (t r : Addr) (s : State) : Host.Outcome State Fault Refusal :=
  .next (complete (completeRead t r) s)

/-- A Clause 22 write command (`41_command_encoder.md` R113) carried out (`20_memory.md` R67, R73). -/
def execC22Write (t r : Addr) (v : Half) (s : State) : Host.Outcome State Fault Refusal :=
  .next (complete (completeWrite t r v) s)

/-- A Clause 45 read command (`41_command_encoder.md` R114) carried out (`20_memory.md` R67, R73); no address phase (R119). -/
def execC45Read (t r : Addr) (s : State) : Host.Outcome State Fault Refusal :=
  .next (complete (completeRead t r) s)

/-- A Clause 45 write command (`41_command_encoder.md` R115) carried out (`20_memory.md` R67, R73); no address phase (R119). -/
def execC45Write (t r : Addr) (v : Half) (s : State) : Host.Outcome State Fault Refusal :=
  .next (complete (completeWrite t r v) s)

end Sys2Proof.Machine
end

