-- ==== Sys2Proof/Machine/Divisor.lean ====
section
/-!
DEFINITION. The six divisor codes (`30_encoding.md` R91, `40_clock_divisor.md` R101): `CLKCFG.DIV` holds the code and the
controller's clock generator divides the peripheral clock by the divisor it stands for (`10_state.md` R34).  Log 4.
-/

namespace Sys2Proof.Machine

/-- Divide by 8 (`40_clock_divisor.md` R101, tier 0). -/
def execDiv8 (s : State) : Host.Outcome State Fault Refusal := .next (programDivisor .div8 s)

/-- Divide by 16 (`40_clock_divisor.md` R101, tier 1). -/
def execDiv16 (s : State) : Host.Outcome State Fault Refusal := .next (programDivisor .div16 s)

/-- Divide by 32 (`40_clock_divisor.md` R101, tier 2). -/
def execDiv32 (s : State) : Host.Outcome State Fault Refusal := .next (programDivisor .div32 s)

/-- Divide by 48 (`40_clock_divisor.md` R101, tier 3). -/
def execDiv48 (s : State) : Host.Outcome State Fault Refusal := .next (programDivisor .div48 s)

/-- Divide by 64 (`40_clock_divisor.md` R101, tier 4). -/
def execDiv64 (s : State) : Host.Outcome State Fault Refusal := .next (programDivisor .div64 s)

/-- Divide by 96 (`40_clock_divisor.md` R101, tier 5). -/
def execDiv96 (s : State) : Host.Outcome State Fault Refusal := .next (programDivisor .div96 s)

end Sys2Proof.Machine
end

