-- ==== Sys2Proof/Machine/Lifecycle.lean ====
section
/-!
DEFINITION. INITIALIZE, BUS_ENABLE and BUS_DISABLE (`43_lifecycle.md`), each one atomic step for the requester being
served.
-/

namespace Sys2Proof.Machine

/-- The answer without data (`30_encoding.md` R83). -/
def plainResponse (e : Status) : Response := { status := e, data := none }

/-- BUS_ENABLE (`43_lifecycle.md` R166). -/
def execBen (s : State) : Host.Outcome State Fault Refusal :=
  match refusal .ben s.life with
  | some e => .refused e
  | none => .next (respond s.cur (plainResponse .ok) (setMbe true s))

/-- BUS_DISABLE (`43_lifecycle.md` R167). -/
def execBdis (s : State) : Host.Outcome State Fault Refusal :=
  match refusal .bdis s.life with
  | some e => .refused e
  | none => .next (respond s.cur (plainResponse .ok) (setSlot (markSlot s.slot) (setMbe false s)))

/-- The register writes of a successful INITIALIZE, in the order of `43_lifecycle.md` R161. -/
def bringUp (x : Tier) (p : BitVec 2) (s : State) : State :=
  setLife .ready (setProto p (programDivisor x (clearInterrupts (setMbe true s))))

/-- INITIALIZE (`43_lifecycle.md` R161; `UnsupportedClock`: R162).  One atomic step, log 22. -/
def execInit (f : BitVec 32) (p : BitVec 2) (s : State) : Host.Outcome State Fault Refusal :=
  match refusal (.init f p) s.life with
  | some e => .refused e
  | none =>
    match divsel f with
    | none => .next (respond s.cur (plainResponse .unsupportedClock) (setLife .failed s))
    | some x => .next (respond s.cur (plainResponse .ok) (bringUp x p s))

end Sys2Proof.Machine
end

