-- ==== Sys2Proof/Machine/Transfer.lean ====
section
/-!
DEFINITION. READ and WRITE (`42_transaction_engine.md`): the transitions of the engine, one an execution, and the meanings
of the two operations.
-/

namespace Sys2Proof.Machine

/-- The acquire step (`42_transaction_engine.md` R134) for the requester being served. -/
def acquire (d : Desc) (s : State) : State := goto .check (takeGuard s.cur d s)

/-- `F_CHECK` (`42_transaction_engine.md` R136). -/
def checkProtocol (s : State) : State :=
  if recognised s.proto then goto .enable s else raiseError .unsupportedProtocol s

/-- `F_ENABLE` (`42_transaction_engine.md` R137). -/
def enableBus (s : State) : State := goto .issue (setMbe true s)

/-- `F_ISSUE` (`42_transaction_engine.md` R138).  ENCODE cannot fail here (R136); if it did, the error it raises would end
the transaction.  Log 27. -/
def issueCommand (s : State) : State :=
  match encodeTransaction s.codes.params s.proto s.d.op s.d.tgt s.d.reg s.d.wdata with
  | some w => goto .poll (startCommand w s)
  | none => raiseError .unsupportedProtocol s

/-- `F_POLL` (`42_transaction_engine.md` R139): one attempt. -/
def pollIdle (s : State) : State :=
  goto (if s.idle then .capture else .wait) (countPoll s)

/-- `F_WAIT` (`42_transaction_engine.md` R140): the interval has run; a step, since the model has no time (R195). -/
def waitInterval (s : State) : State :=
  if budgetSpent s then raiseError .timeout s else goto .poll s

/-- `F_CAPTURE` (`42_transaction_engine.md` R142). -/
def captureData (s : State) : State :=
  goto .release (setErr .ok
    (match s.d.op with
     | .read => setRdata (cmdData s) s
     | .write => s))

/-- One transition of the engine (`42_transaction_engine.md` R144); `d` is loaded in `F_IDLE` only. -/
def engineStep (d : Desc) (s : State) : State :=
  match s.fsm with
  | .idle => acquire d s
  | .check => checkProtocol s
  | .enable => enableBus s
  | .issue => issueCommand s
  | .poll => pollIdle s
  | .wait => waitInterval s
  | .capture => captureData s
  | .release => releaseGuard s

/-- READ (`42_transaction_engine.md` R131): its next transition. -/
def execRd (t r : BitVec 8) (s : State) : Host.Outcome State Fault Refusal :=
  match refusal (.rd t r) s.life with
  | some e => .refused e
  | none => .next (engineStep { tgt := lowAddr t, reg := lowAddr r, op := .read, wdata := 0#16 } s)

/-- WRITE (`42_transaction_engine.md` R132): its next transition. -/
def execWr (t r : BitVec 8) (v : Half) (s : State) : Host.Outcome State Fault Refusal :=
  match refusal (.wr t r v) s.life with
  | some e => .refused e
  | none => .next (engineStep { tgt := lowAddr t, reg := lowAddr r, op := .write, wdata := v } s)

end Sys2Proof.Machine
end

