-- ==== Sys2Proof/Machine/Dispatch.lean ====
section
/-!
DEFINITION. One arm per instruction, each a direct call of its meaning.
-/

namespace Sys2Proof.Machine

def exec (i : Instr) (s : State) : Host.Outcome State Fault Refusal :=
  match i with
  | .rd t r => Sys2Proof.Machine.execRd t r s
  | .wr t r v => Sys2Proof.Machine.execWr t r v s
  | .ben => Sys2Proof.Machine.execBen s
  | .bdis => Sys2Proof.Machine.execBdis s
  | .init f p => Sys2Proof.Machine.execInit f p s
  | .c22Read t r => Sys2Proof.Machine.execC22Read t r s
  | .c22Write t r v => Sys2Proof.Machine.execC22Write t r v s
  | .c45Read t r => Sys2Proof.Machine.execC45Read t r s
  | .c45Write t r v => Sys2Proof.Machine.execC45Write t r v s
  | .div8 => Sys2Proof.Machine.execDiv8 s
  | .div16 => Sys2Proof.Machine.execDiv16 s
  | .div32 => Sys2Proof.Machine.execDiv32 s
  | .div48 => Sys2Proof.Machine.execDiv48 s
  | .div64 => Sys2Proof.Machine.execDiv64 s
  | .div96 => Sys2Proof.Machine.execDiv96 s

end Sys2Proof.Machine
end

