-- ==== Sys2Proof/Machine/Step.lean ====
section
/-!
DEFINITION. One step: one turn of one agent (`00_scope.md` R13).
-/

namespace Sys2Proof.Machine

/-- One step: the turn's instruction is executed, or the turn ends without one. -/
def step (s : State) : Host.Outcome State Fault Refusal :=
  match fetch s with
  | .run i s' => exec i s'
  | .done o => o

/-- `s` with the instruction of a table word where `step` fetches its next instruction. -/
def State.withFetchWord (s : State) (nbits w : Nat) : State := placeCode (tableCode nbits w) s

end Sys2Proof.Machine
end

