-- ==== Sys2Proof/Safety.lean ====
section
/-!
DEFINITION. The terms claims are stated in: what reset fixes, the invariants of the block, the bound on a transaction, and
the situations a transaction starts from.
-/

namespace Sys2Proof.Machine

/-! ## Reset -/

/-- The entries `10_state.md` R43 fixes; every entry it leaves unspecified is left open here too. -/
def State.IsReset (s : State) : Prop :=
  s.life = .uninit ∧ s.guard = .available ∧ s.fsm = .idle ∧ (∀ q, tableFind s.pend q = none) ∧
    (∀ q, tableFind s.resp q = none) ∧ s.mbe = false ∧ s.idle = true ∧ s.slot = .empty

/-! ## Invariants -/

/-- `GUARD = AVAILABLE` if and only if `FSM = F_IDLE` (`10_state.md` R25). -/
def State.GuardInv (s : State) : Prop := s.guard = .available ↔ s.fsm = .idle

/-- `STAT.IDLE = 0` if and only if `SLOT` is full (`10_state.md` R41), and a command in the slot while the bus is disabled
is overlapped (`20_memory.md` R72). -/
def State.SlotInv (s : State) : Prop :=
  (s.idle = false ↔ slotFull s.slot = true) ∧ ∀ w, s.slot = .full w false → s.mbe = true

/-- The slot holds a word of one of the four command forms (`41_command_encoder.md` R118). -/
def State.SlotWordInv (s : State) : Prop :=
  ∀ w ov, s.slot = .full w ov → ∃ i, decodeCommand s.codes.params w = .instr i

/-- The poll count of a transaction in flight (`10_state.md` R29, `42_transaction_engine.md` R139, R140). -/
def State.PollsInv (s : State) : Prop :=
  match s.fsm with
  | .idle => True
  | .check | .enable | .issue => s.polls = 0
  | .poll => s.polls < pollBudget
  | .wait | .capture => 1 ≤ s.polls ∧ s.polls ≤ pollBudget
  | .release => s.polls ≤ pollBudget

/-- What holds of the lifecycle: a transaction is in flight only when READY, and before and after a failed INITIALIZE the
bus is off and the slot empty (`43_lifecycle.md` R161, R162, R170). -/
def State.LifeInv (s : State) : Prop :=
  s.life ≠ .ready → s.fsm = .idle ∧ s.slot = .empty ∧ s.mbe = false

/-- What INITIALIZE leaves: no interrupt source enabled (`60_exceptions.md` R193), a divisor code that is not reserved
(`10_state.md` R34), and the generator running on it (`70_reset_and_hazards.md` R232).  The clause on `mdc` is the model's own: DESIGN CHOICE,
log 4 and 30. -/
def State.ReadyInv (s : State) : Prop :=
  s.life = .ready →
    s.intEn = 0 ∧ ∃ x, s.div = tierCode x ∧ s.mdc = mdioClock s.pclk x

/-- A requester has at most one operation outstanding (`10_state.md` R31), and the mailbox tables are in order. -/
def State.MailInv (s : State) : Prop :=
  tableSorted s.pend ∧ tableSorted s.resp ∧
    ∀ q, tableFind s.pend q = none ∨ tableFind s.resp q = none

/-- Every pending request is a well-formed operation (`42_transaction_engine.md` R133). -/
def State.PendInv (s : State) : Prop :=
  ∀ q req, tableFind s.pend q = some req → ∃ i, decodeRequest req = .instr i ∧ i.WellFormed

/-- The request of the transaction in flight is still in its owner's mailbox and is the one latched
(`42_transaction_engine.md` R134). -/
def State.FlightInv (s : State) : Prop :=
  s.fsm ≠ .idle → ∃ req, tableFind s.pend s.owner = some req ∧ decodeRequest req = .instr (latched s)

/-- Past `F_CHECK` and before an error the protocol is a recognised one (`42_transaction_engine.md` R136). -/
def State.ProtoInv (s : State) : Prop :=
  (s.fsm = .enable ∨ s.fsm = .issue ∨ s.fsm = .poll ∨ s.fsm = .wait ∨ s.fsm = .capture) → recognised s.proto = true

/-- `ERR` at release is a status READ and WRITE can answer (`30_encoding.md` R83, `60_exceptions.md` R186). -/
def State.ErrInv (s : State) : Prop := s.fsm = .release → s.err ≠ .unsupportedClock

/-- The bits of `INT_EN` and `INT_PEND` beyond `N_INT` do not exist (`20_memory.md` R56). -/
def State.IntInv (s : State) : Prop := s.intEn &&& ~~~sourceMask = 0#32 ∧ s.intPend &&& ~~~sourceMask = 0#32

/-- What holds of SIM (`20_memory.md` R75 (b), (c)): the bus is enabled when a command is issued, a command in the slot is the
one the engine has just issued, it can complete, it is not overlapped, and no poll fails. -/
def State.SimInv (s : State) : Prop :=
  s.env = .sim →
    s.fsm ≠ .wait ∧ (s.fsm = .issue → s.mbe = true) ∧
      ∀ w ov, s.slot = .full w ov →
        s.fsm = .poll ∧ s.mbe = true ∧ ov = false ∧
          encodeTransaction s.codes.params s.proto s.d.op s.d.tgt s.d.reg s.d.wdata = some w

/-- All of it, for a machine whose codes meet `00_scope.md` R8. -/
structure State.Inv (s : State) : Prop where
  codes    : s.codes.Ok
  guard    : s.GuardInv
  slot     : s.SlotInv
  slotWord : s.SlotWordInv
  polls    : s.PollsInv
  life     : s.LifeInv
  ready    : s.ReadyInv
  mail     : s.MailInv
  pend     : s.PendInv
  flight   : s.FlightInv
  proto    : s.ProtoInv
  err      : s.ErrInv
  ints     : s.IntInv
  sim      : s.SimInv
  phy      : Memory.wf s.phy

/-! ## The command of a transaction -/

/-- The command form of a transaction under a recognised protocol (`41_command_encoder.md` R112 to R115). -/
def commandForm (proto : BitVec 2) (op : Op) (t r : Addr) (v : Half) : Instr :=
  if proto = 0#2 then
    match op with
    | .read => .c22Read t r
    | .write => .c22Write t r v
  else
    match op with
    | .read => .c45Read t r
    | .write => .c45Write t r v

/-- The location a command in the slot would write if it is a Write (`20_memory.md` R71), under the codes `c`. -/
def slotWrite (c : Codes) (x : Slot) : Option (Addr × Addr × Half) :=
  match x with
  | .empty => none
  | .full w _ =>
    match decodeCommand c.params w with
    | .instr (.c22Write t r v) => some (t, r, v)
    | .instr (.c45Write t r v) => some (t, r, v)
    | _ => none

/-! ## The length of a transaction -/

/-- How many transitions of the engine a transaction in flight has left at most (`42_transaction_engine.md` R146). -/
def State.remaining (s : State) : Nat :=
  match s.fsm with
  | .idle => 0
  | .release => 1
  | .capture => 2
  | .wait => 2 * (pollBudget - s.polls) + 3
  | .poll => 2 * (pollBudget - s.polls) + 2
  | .issue => 2 * pollBudget + 3
  | .enable => 2 * pollBudget + 4
  | .check => 2 * pollBudget + 5

/-! ## Runs and transactions -/

/-- `k` steps of the machine, stopping at the first fault or refusal. -/
def runSteps : Nat → State → Host.Outcome State Fault Refusal
  | 0, s => .next s
  | k + 1, s =>
    match step s with
    | .next t => runSteps k t
    | .fault e => .fault e
    | .refused e => .refused e

/-- A WRITE to the location `{t, r}` holds the guard. -/
def State.Writing (t r : Addr) (s : State) : Prop :=
  s.fsm ≠ .idle ∧ s.d.op = .write ∧ s.d.tgt = t ∧ s.d.reg = r

/-- In no state of the `n` steps from `s` does a WRITE to `{t, r}` hold the guard: none is ordered there
(`20_memory.md` R62). -/
def NoWriteDuring (t r : Addr) : Nat → State → Prop
  | 0, s => ¬ s.Writing t r
  | n + 1, s => ¬ s.Writing t r ∧ ∀ u, step s = .next u → NoWriteDuring t r n u

/-- Requester `q`'s READ or WRITE `i` is about to be granted: the block is READY and the engine free, the next turn is the
engine's for `q`, no turn is given after it, and no lifecycle operation waits. -/
def State.AboutToServe (s : State) (q : Nat) (i : Instr) : Prop :=
  s.life = .ready ∧ s.fsm = .idle ∧ s.agenda = [.engine q] ∧ waitingLifecycle s = [] ∧ i.WellFormed ∧
    ∃ req, tableFind s.pend q = some req ∧ isTransfer req = true ∧ decodeRequest req = .instr i

/-- The block is idle again with requester `q` answered `v`. -/
def State.Answered (s : State) (q : Nat) (v : Response) : Prop :=
  s.fsm = .idle ∧ s.guard = .available ∧ tableFind s.pend q = none ∧ tableFind s.resp q = some v

/-- The registers a requester's operation could have written, equal in two states (`60_exceptions.md` R187). -/
def State.SameRegisters (s t : State) : Prop :=
  t.mbe = s.mbe ∧ t.div = s.div ∧ t.idle = s.idle ∧ t.cmd = s.cmd ∧ t.intEn = s.intEn ∧ t.intPend = s.intPend ∧
    t.slot = s.slot ∧ t.phy = s.phy

end Sys2Proof.Machine
end

