-- ==== Sys2Proof/Certificates/Slice0/Obligations.lean ====
section
/-!
DEFINITION. The statements for the provers.  Each docstring is the statement in words and cites the rules it rests on.
-/

open Sys2Proof Sys2Proof.Machine

/-- For every set of command-word parameters that meets R8 with a layout whose fields lie apart, and for every
instruction of the three code spaces with every operand at every value, decoding its encoding gives that instruction
back. (00_scope.md R8; 30_encoding.md R81; 30_encoding.md R90; 30_encoding.md R91) -/
def Obligations.DecodeOfEncode : Prop :=
  ∀ p : Params, p.Ok → ∀ i : Instr, decode p (encode p i) = .instr i

/-- If a command word decodes (default field positions, any other parameters), encoding the instruction gives the word
with its TA field set to TA_CODE; if a request decodes, encoding gives the record with the fields its operation does
not use set to zero; if a divisor code decodes, encoding gives the code. The packing of unused fields as zero is the
model's choice (log 23). (30_encoding.md R81; 30_encoding.md R84; 30_encoding.md R87; 30_encoding.md R90;
30_encoding.md R91) -/
def Obligations.EncodeOfDecode : Prop :=
  (∀ (p : Params) (w : Word) (i : Instr), p.layout = defaultLayout →
    decode p (.command w) = .instr i → encode p i = .command (setField 16 p.taCode w)) ∧
  (∀ (p : Params) (q : Request) (i : Instr),
    decode p (.request q) = .instr i → encode p i = .request (usedFields q)) ∧
  (∀ (p : Params) (d : BitVec 3) (i : Instr),
    decode p (.divisor d) = .instr i → encode p i = .divisor d)

/-- With the default field positions and any start-field and operation codes that meet R8: a word decodes as a read form
exactly when the word masked with 0xF000FFFF is that form's SOF << 30 | OP << 28, and as a write form exactly when
the word masked with 0xF0000000 is. (30_encoding.md R90; 30_encoding.md R97) -/
def Obligations.FormsMatchMasks : Prop :=
  ∀ p : Params, p.Ok → p.layout = defaultLayout → ∀ w : Word,
    ((∃ t r, decodeCommand p w = .instr (.c22Read t r)) ↔
      w &&& 0xF000FFFF#32 = (p.sofC22 ++ p.opC22Read ++ 0#28 : Word)) ∧
    ((∃ t r v, decodeCommand p w = .instr (.c22Write t r v)) ↔
      w &&& 0xF0000000#32 = (p.sofC22 ++ p.opC22Write ++ 0#28 : Word)) ∧
    ((∃ t r, decodeCommand p w = .instr (.c45Read t r)) ↔
      w &&& 0xF000FFFF#32 = (p.sofC45 ++ p.opC45Read ++ 0#28 : Word)) ∧
    ((∃ t r v, decodeCommand p w = .instr (.c45Write t r v)) ↔
      w &&& 0xF0000000#32 = (p.sofC45 ++ p.opC45Write ++ 0#28 : Word))

/-- A request is rejected, as reservedOperation, exactly when req_op is 5 or more; a divisor code, as reservedDivisor,
exactly when it is 6 or 7; a command word, as reservedCommand, exactly when its start field is of neither protocol,
or its operation code is not assigned under that start field, or it is a read word with non-zero DATA. (That last
clause is the model's choice of R90's stricter masks, DEDUCED, log 20; R69 by itself decodes such a word as a Read.)
(30_encoding.md R93; 20_memory.md R69) -/
def Obligations.ReservedCodesRejected : Prop :=
  (∀ q : Request, 5 ≤ q.op.toNat ↔ decodeRequest q = .reject (.reservedOperation q.op)) ∧
  (∀ d : BitVec 3, 6 ≤ d.toNat ↔ decodeDivisor d = .reject (.reservedDivisor d)) ∧
  (∀ p : Params, p.Ok → ∀ w : Word,
    decodeCommand p w = .reject (.reservedCommand w) ↔
      ¬ ((getField p.layout.sof 2 w = p.sofC22 ∧
            (getField p.layout.op 2 w = p.opC22Read ∧ getField p.layout.data 16 w = 0#16 ∨
              getField p.layout.op 2 w = p.opC22Write)) ∨
          (getField p.layout.sof 2 w = p.sofC45 ∧
            (getField p.layout.op 2 w = p.opC45Read ∧ getField p.layout.data 16 w = 0#16 ∨
              getField p.layout.op 2 w = p.opC45Write))))

/-- For every set of parameters that meets R8 with R84's field positions, one word of each command form, written out
field by field with the configuration's own start field and operation code (R86), decodes to its instruction; if the
codes are the spec's defaults, which R86 marks as unconfirmed (UNVERIFIED, log 9, here a hypothesis and no property
of the model), the words written out bit by bit decode so and a word with an unassigned start field is rejected. Two
requests and a divisor code, which need no parameter, decode to theirs. (30_encoding.md R81; 30_encoding.md R84;
30_encoding.md R86; 30_encoding.md R90; 30_encoding.md R91; 95_test_vectors.md 2.3) -/
def Obligations.WrittenOutCodesDecode : Prop :=
  (∀ p : Params, p.Ok → p.layout = defaultLayout →
    decode p (.command (p.sofC22 ++ p.opC22Read ++ 0b00101_00011_10_0000000000000000#28 : Word)) =
      .instr (.c22Read 5 3) ∧
    decode p (.command (p.sofC22 ++ p.opC22Write ++ 0b00101_00011_10_1010101111001101#28 : Word)) =
      .instr (.c22Write 5 3 0xABCD) ∧
    decode p (.command (p.sofC45 ++ p.opC45Read ++ 0b11111_11111_10_0000000000000000#28 : Word)) =
      .instr (.c45Read 31 31) ∧
    decode p (.command (p.sofC45 ++ p.opC45Write ++ 0b00001_00000_00_0001000100010001#28 : Word)) =
      .instr (.c45Write 1 0 0x1111)) ∧
  (∀ p : Params, p.toCodes = defaultCodes →
    decode p (.command 0b01_01_00101_00011_10_0000000000000000#32) = .instr (.c22Read 5 3) ∧
    decode p (.command 0b01_10_00101_00011_10_1010101111001101#32) = .instr (.c22Write 5 3 0xABCD) ∧
    decode p (.command 0b00_10_11111_11111_10_0000000000000000#32) = .instr (.c45Read 31 31) ∧
    decode p (.command 0b00_11_00001_00000_00_0001000100010001#32) = .instr (.c45Write 1 0 0x1111) ∧
    decode p (.command 0x928E0000#32) = .reject (.reservedCommand 0x928E0000#32)) ∧
  (∀ p : Params,
    decode p (.request ⟨0b001, 5, 3, 0xABCD, 0, 0⟩) = .instr (.wr 5 3 0xABCD) ∧
    decode p (.request ⟨0b100, 0, 0, 0, 100000000, 1⟩) = .instr (.init 100000000 1) ∧
    decode p (.divisor 0b011) = .instr .div48)

/-- ENCODE answers no word exactly when the protocol is 0b10 or 0b11, whatever the other operands; and in a state past
F_CHECK (ProtoInv) the engine's call in F_ISSUE answers a word. (41_command_encoder.md R116;
42_transaction_engine.md R136) -/
def Obligations.EncodeFailsOnUnrecognisedProtocol : Prop :=
  (∀ (p : Params) (proto : BitVec 2) (op : Op) (t r : Addr) (v : Half),
    encodeTransaction p proto op t r v = none ↔ proto = 0b10#2 ∨ proto = 0b11#2) ∧
  (∀ s : State, s.ProtoInv → s.fsm = .issue →
    ∃ w, encodeTransaction s.codes.params s.proto s.d.op s.d.tgt s.d.reg s.d.wdata = some w)

/-- For every t, r, v1, v2 and recognised protocol, ENCODE of a Read with v1 is ENCODE of the Read with v2, and the DATA
field of the word is zero. (R117) -/
def Obligations.ReadWordIgnoresData : Prop :=
  ∀ p : Params, p.Ok → ∀ (proto : BitVec 2) (t r : Addr) (v1 v2 : Half), recognised proto = true →
    encodeTransaction p proto .read t r v1 = encodeTransaction p proto .read t r v2 ∧
    ∃ w, encodeTransaction p proto .read t r v1 = some w ∧ getField p.layout.data 16 w = 0#16

/-- Under R8: the word of a transaction decodes to the command form of its protocol, direction, addresses and data;
every word that decodes to a form and carries TA_CODE is produced (default field positions); and two transactions
with the same word have the same protocol, direction, addresses, and data if they are Writes. (R118) -/
def Obligations.EncodedWordsAreTheFourForms : Prop :=
  ∀ p : Params, p.Ok →
    (∀ proto op t r v w, encodeTransaction p proto op t r v = some w →
      decodeCommand p w = .instr (commandForm proto op t r v)) ∧
    (p.layout = defaultLayout → ∀ w i, decodeCommand p w = .instr i → getField 16 2 w = p.taCode →
      ∃ proto op t r v, recognised proto = true ∧ encodeTransaction p proto op t r v = some w) ∧
    (∀ proto op t r v proto' op' t' r' v' w, encodeTransaction p proto op t r v = some w →
      encodeTransaction p proto' op' t' r' v' = some w →
      proto = proto' ∧ op = op' ∧ t = t' ∧ r = r' ∧ (op = .write → v = v'))

/-- DIVSEL(f) is tier x exactly when f is at most x's bound and every tier whose bound is at least f has a bound of at
least x's; the six bounds in Hz, divisors and codes are those of R101's table, as numerals; each bound selects its
own tier and one hertz more the next, or none after 240,000,000 (R106 (a), (b)); DIVSEL(100,000,000) is the tier of
divisor 48, code 0b011. (R102) -/
def Obligations.DivselPicksFirstTier : Prop :=
  (∀ (f : BitVec 32) (x : Tier), divsel f = some x ↔
    f.toNat ≤ tierBound x ∧ ∀ y, f.toNat ≤ tierBound y → tierBound x ≤ tierBound y) ∧
  (tierBound .div8 = 20000000 ∧ tierBound .div16 = 40000000 ∧ tierBound .div32 = 80000000 ∧
    tierBound .div48 = 120000000 ∧ tierBound .div64 = 160000000 ∧ tierBound .div96 = 240000000) ∧
  (tierDivisor .div8 = 8 ∧ tierDivisor .div16 = 16 ∧ tierDivisor .div32 = 32 ∧
    tierDivisor .div48 = 48 ∧ tierDivisor .div64 = 64 ∧ tierDivisor .div96 = 96) ∧
  (tierCode .div8 = 0b000#3 ∧ tierCode .div16 = 0b001#3 ∧ tierCode .div32 = 0b010#3 ∧
    tierCode .div48 = 0b011#3 ∧ tierCode .div64 = 0b100#3 ∧ tierCode .div96 = 0b101#3) ∧
  (divsel 20000000#32 = some .div8 ∧ divsel 20000001#32 = some .div16 ∧
    divsel 40000000#32 = some .div16 ∧ divsel 40000001#32 = some .div32 ∧
    divsel 80000000#32 = some .div32 ∧ divsel 80000001#32 = some .div48 ∧
    divsel 120000000#32 = some .div48 ∧ divsel 120000001#32 = some .div64 ∧
    divsel 160000000#32 = some .div64 ∧ divsel 160000001#32 = some .div96 ∧
    divsel 240000000#32 = some .div96 ∧ divsel 240000001#32 = none) ∧
  divsel 100000000#32 = some .div48

/-- DIVSEL(f) is UnsupportedClock exactly when f is above 240,000,000; a larger frequency never gets a smaller code; f
is at most 2,500,000 times the selected tier's divisor, so the exact quotient is at or below 2.5 MHz, and above tier
0 it is above 1.25 MHz; the model's whole-Hz clock, which drops the fraction (DESIGN CHOICE, log 4), keeps the same
bounds. (40_clock_divisor.md R103; 40_clock_divisor.md R105; 40_clock_divisor.md R106) -/
def Obligations.DivselBoundsTheClock : Prop :=
  (∀ f : BitVec 32, divsel f = none ↔ 240000000 < f.toNat) ∧
  (∀ (f g : BitVec 32) (x y : Tier), f.toNat ≤ g.toNat → divsel f = some x → divsel g = some y →
    (tierCode x).toNat ≤ (tierCode y).toNat) ∧
  (∀ (f : BitVec 32) (x : Tier), divsel f = some x →
    f.toNat ≤ 2500000 * tierDivisor x ∧ (x ≠ .div8 → 1250000 * tierDivisor x < f.toNat) ∧
      mdioClock f x ≤ 2500000 ∧ (x ≠ .div8 → 1250000 ≤ mdioClock f x))

/-- In every state with LIFE = UNINIT, INIT f, p with 1 <= f <= 240,000,000 and any protocol code answers the state with
LIFE READY, PROTO p, MBE 1, INT_EN and INT_PEND 0, the divisor of DIVSEL(f) programmed (and the generator on it: the
model's field, log 4), the requester answered OK, and nothing else changed: every byte of memory, every latch and
the guard included. (43_lifecycle.md R161; 43_lifecycle.md R164; 00_scope.md R7) -/
def Obligations.InitialiseSucceeds : Prop :=
  ∀ (s : State) (f : BitVec 32) (p : BitVec 2), s.life = .uninit → f ≠ 0#32 → f.toNat ≤ 240000000 →
    ∃ x, divsel f = some x ∧
      exec (.init f p) s = .next
        { s with
          life := .ready, proto := p, mbe := true, intEn := 0#32, intPend := 0#32, div := tierCode x,
          mdc := mdioClock s.pclk x, pend := tableErase s.pend s.cur,
          resp := tablePut s.resp s.cur { status := .ok, data := none } }

/-- In every state with LIFE = UNINIT, INIT f, p with f above 240,000,000 answers the state with LIFE FAILED and the
requester answered UnsupportedClock, every other field unchanged; and the response is UnsupportedClock for no other
frequency. (R162) -/
def Obligations.InitialiseUnsupportedClock : Prop :=
  ∀ (s : State) (f : BitVec 32) (p : BitVec 2), s.life = .uninit → f ≠ 0#32 →
    (240000000 < f.toNat →
      exec (.init f p) s = .next
        { s with
          life := .failed, pend := tableErase s.pend s.cur,
          resp := tablePut s.resp s.cur { status := .unsupportedClock, data := none } }) ∧
    (f.toNat ≤ 240000000 → ∃ t, exec (.init f p) s = .next t ∧
      tableFind t.resp s.cur = some { status := .ok, data := none })

/-- In every state whose LIFE is not READY the four operations are refused as notReady, whatever their operands; in
every state whose LIFE is not UNINIT, INITIALIZE is refused as alreadyInitialised. (That this holds whatever the
operands is the order LIFE before operands, DESIGN CHOICE, log 18; R170 and R171 say that the request is refused.)
(43_lifecycle.md R170; 43_lifecycle.md R171) -/
def Obligations.WrongLifeRefused : Prop :=
  (∀ s : State, s.life ≠ .ready →
    (∀ t r, exec (.rd t r) s = .refused .notReady) ∧ (∀ t r v, exec (.wr t r v) s = .refused .notReady) ∧
    exec .ben s = .refused .notReady ∧ exec .bdis s = .refused .notReady) ∧
  (∀ s : State, s.life ≠ .uninit → ∀ f p, exec (.init f p) s = .refused .alreadyInitialised)

/-- With LIFE = READY, READ and WRITE with a target or register address of 32 or more are refused as addressOutOfRange;
with LIFE = UNINIT, INITIALIZE with frequency 0 is refused as zeroFrequency. (30_encoding.md R82; 30_encoding.md
R93; 40_clock_divisor.md R106) -/
def Obligations.IllFormedOperandsRefused : Prop :=
  (∀ (s : State) (t r : BitVec 8), s.life = .ready → (32 ≤ t.toNat ∨ 32 ≤ r.toNat) →
    exec (.rd t r) s = .refused .addressOutOfRange ∧
    ∀ v, exec (.wr t r v) s = .refused .addressOutOfRange) ∧
  (∀ (s : State) (p : BitVec 2), s.life = .uninit → exec (.init 0#32 p) s = .refused .zeroFrequency)

/-- A request with req_op 2 is BUS_ENABLE; in every READY state it answers the state with MBE 1 and the requester
answered OK, every other field unchanged, the overlapped mark of a slot and every byte of memory included; with MBE
already 1 only the mailboxes change. (R166) -/
def Obligations.BusEnableSetsTheBit : Prop :=
  (∀ q : Request, q.op = 2#3 → decodeRequest q = .instr .ben) ∧
  (∀ s : State, s.life = .ready →
    exec .ben s = .next
      { s with
        mbe := true, pend := tableErase s.pend s.cur,
        resp := tablePut s.resp s.cur { status := .ok, data := none } }) ∧
  (∀ s : State, s.life = .ready → s.mbe = true →
    exec .ben s = .next
      { s with
        pend := tableErase s.pend s.cur,
        resp := tablePut s.resp s.cur { status := .ok, data := none } })

/-- In every READY state BUS_DISABLE answers the state with MBE 0 and the requester answered OK; an empty slot stays
empty, a full slot keeps its word and is marked overlapped; every other field is unchanged, every byte of memory
included. (43_lifecycle.md R167; 20_memory.md R72) -/
def Obligations.BusDisableMarksTheSlot : Prop :=
  (∀ s : State, s.life = .ready → s.slot = .empty →
    exec .bdis s = .next
      { s with
        mbe := false, pend := tableErase s.pend s.cur,
        resp := tablePut s.resp s.cur { status := .ok, data := none } }) ∧
  (∀ (s : State) (w : Word) (ov : Bool), s.life = .ready → s.slot = .full w ov →
    exec .bdis s = .next
      { s with
        mbe := false, slot := .full w true, pend := tableErase s.pend s.cur,
        resp := tablePut s.resp s.cur { status := .ok, data := none } })

/-- If INIT, BEN or BDIS answers a next state: GUARD, OWNER, FSM, the latches, POLLS, RDATA, ERR, CMD, STAT.IDLE, every
byte of memory, and the mailboxes of every requester but the one served are unchanged; the slot keeps its word; BEN
and BDIS also leave LIFE, PROTO, DIV, INT_EN and INT_PEND. (43_lifecycle.md R168; 43_lifecycle.md R169;
43_lifecycle.md R161; 60_exceptions.md R187) -/
def Obligations.LifecycleFrame : Prop :=
  ∀ (i : Instr) (s t : State), (i = .ben ∨ i = .bdis ∨ ∃ f p, i = .init f p) → exec i s = .next t →
    t.guard = s.guard ∧ t.owner = s.owner ∧ t.fsm = s.fsm ∧ t.d = s.d ∧ t.polls = s.polls ∧
    t.rdata = s.rdata ∧ t.err = s.err ∧ t.cmd = s.cmd ∧ t.idle = s.idle ∧
    t.env = s.env ∧ t.codes = s.codes ∧ t.pclk = s.pclk ∧ t.agenda = s.agenda ∧ t.cur = s.cur ∧
    t.draws = s.draws ∧
    (∀ a, readByte t.phy a = readByte s.phy a) ∧
    (∀ q, q ≠ s.cur → tableFind t.pend q = tableFind s.pend q ∧ tableFind t.resp q = tableFind s.resp q) ∧
    (s.slot = .empty ↔ t.slot = .empty) ∧
    (∀ w ov, s.slot = .full w ov → ∃ ov', t.slot = .full w ov' ∧ (i ≠ .bdis → ov' = ov)) ∧
    (i = .ben ∨ i = .bdis →
      t.life = s.life ∧ t.proto = s.proto ∧ t.div = s.div ∧ t.mdc = s.mdc ∧ t.intEn = s.intEn ∧
        t.intPend = s.intPend)

/-- If INITIALIZE answers READY from UNINIT and the true peripheral clock is at most the frequency operand, the MDIO
clock is at most 2,500,000 Hz, so is the exact quotient of the true clock by the divisor programmed, and CLKCFG.DIV
decodes to a divisor code whose execution changes nothing. (The field for the MDIO clock is the model's rendering,
log 4; the true clock is a field no step changes, log 30.) (40_clock_divisor.md R105; 43_lifecycle.md R165;
70_reset_and_hazards.md R228; 70_reset_and_hazards.md R232) -/
def Obligations.InitialisedClockIsBounded : Prop :=
  ∀ (s t : State) (f : BitVec 32) (p : BitVec 2), s.life = .uninit → exec (.init f p) s = .next t →
    t.life = .ready → s.pclk.toNat ≤ f.toNat →
      t.mdc ≤ 2500000 ∧ (∃ x, t.div = tierCode x ∧ t.pclk.toNat ≤ 2500000 * tierDivisor x) ∧
        ∃ i, decodeDivisor t.div = .instr i ∧ exec i t = .next t

/-- In every READY state with FSM = F_IDLE, READ and WRITE with addresses 0 to 31 answer the state with GUARD HELD,
OWNER the requester served, D loaded (WDATA 0 for a READ), POLLS 0, FSM F_CHECK and nothing else changed; the
request stays pending. (42_transaction_engine.md R134; 30_encoding.md R82; 10_state.md R28) -/
def Obligations.AcquireTakesTheGuard : Prop :=
  ∀ (s : State) (t r : BitVec 8) (v : Half), s.life = .ready → t.toNat < 32 → r.toNat < 32 → s.fsm = .idle →
    exec (.rd t r) s = .next
      { s with
        guard := .held, owner := s.cur, polls := 0, fsm := .check,
        d := { tgt := t.setWidth 5, reg := r.setWidth 5, op := .read, wdata := 0#16 } } ∧
    exec (.wr t r v) s = .next
      { s with
        guard := .held, owner := s.cur, polls := 0, fsm := .check,
        d := { tgt := t.setWidth 5, reg := r.setWidth 5, op := .write, wdata := v } }

/-- In F_CHECK: with PROTO 0b10 or 0b11, READ and WRITE answer the state with ERR UnsupportedProtocol and FSM F_RELEASE,
every other field unchanged; with PROTO 0b00 or 0b01, the state with FSM F_ENABLE. (R136) -/
def Obligations.CheckTestsTheProtocol : Prop :=
  ∀ (s : State) (t r : BitVec 8) (v : Half), s.life = .ready → t.toNat < 32 → r.toNat < 32 → s.fsm = .check →
    (s.proto = 0b10#2 ∨ s.proto = 0b11#2 →
      exec (.rd t r) s = .next { s with err := .unsupportedProtocol, fsm := .release } ∧
      exec (.wr t r v) s = .next { s with err := .unsupportedProtocol, fsm := .release }) ∧
    (s.proto = 0b00#2 ∨ s.proto = 0b01#2 →
      exec (.rd t r) s = .next { s with fsm := .enable } ∧
      exec (.wr t r v) s = .next { s with fsm := .enable })

/-- In F_ENABLE READ and WRITE answer the state with MBE 1 and FSM F_ISSUE, every other field unchanged; and in every
state, if READ or WRITE answers a next state and MBE was 1, it is still 1. (Setting the one bit in one step is the
spec's decision D22, log 8.) (42_transaction_engine.md R137; 10_state.md R33) -/
def Obligations.EnableSetsTheBit : Prop :=
  (∀ (s : State) (t r : BitVec 8) (v : Half), s.life = .ready → t.toNat < 32 → r.toNat < 32 → s.fsm = .enable →
    exec (.rd t r) s = .next { s with mbe := true, fsm := .issue } ∧
    exec (.wr t r v) s = .next { s with mbe := true, fsm := .issue }) ∧
  (∀ (i : Instr) (s u : State), ((∃ t r, i = .rd t r) ∨ ∃ t r v, i = .wr t r v) → exec i s = .next u →
    s.mbe = true → u.mbe = true)

/-- In F_ISSUE with a recognised protocol and the slot empty, READ and WRITE answer the state with CMD the encoded word,
STAT.IDLE 0, the slot full with that word (overlapped exactly when MBE is 0), FSM F_POLL and nothing else changed.
(Idle falling with the write is the spec's decision D13, log 6.) (42_transaction_engine.md R138; 20_memory.md R66;
20_memory.md R72) -/
def Obligations.IssueStartsTheCommand : Prop :=
  ∀ (s : State) (t r : BitVec 8) (v : Half), s.life = .ready → t.toNat < 32 → r.toNat < 32 → s.fsm = .issue → recognised s.proto = true → s.slot = .empty →
    ∃ w, encodeTransaction s.codes.params s.proto s.d.op s.d.tgt s.d.reg s.d.wdata = some w ∧
      exec (.rd t r) s = .next { s with cmd := w, idle := false, slot := .full w (!s.mbe), fsm := .poll } ∧
      exec (.wr t r v) s = .next { s with cmd := w, idle := false, slot := .full w (!s.mbe), fsm := .poll }

/-- In F_ISSUE with a recognised protocol and the slot full: CMD and the slot take the encoded word, the slot is marked
overlapped, idle is 0, FSM is F_POLL; if the replaced command is a Write its location is written exactly when the
free choice says so; otherwise memory is unchanged; no other field but the count of draws changes. (R71 leaves the
choice free. That the model takes it from a free function at the count of draws is log 13, that a Write performed is
recorded in memory in every environment log 16, and that a replaced word of no form is dropped log 20: DESIGN CHOICE
each.) (42_transaction_engine.md R138; 20_memory.md R71) -/
def Obligations.IssueOverFullSlotOverlaps : Prop :=
  ∀ (s : State) (t r : BitVec 8) (v : Half), s.life = .ready → t.toNat < 32 → r.toNat < 32 → s.fsm = .issue → recognised s.proto = true → slotFull s.slot = true →
    ∃ w, encodeTransaction s.codes.params s.proto s.d.op s.d.tgt s.d.reg s.d.wdata = some w ∧
      ∃ m n,
        (∀ t' r' v', slotWrite s.codes s.slot = some (t', r', v') →
          m = if Config.freeChoice s.draws then phyWrite s.phy t' r' v' else s.phy) ∧
        (slotWrite s.codes s.slot = none → m = s.phy) ∧
        exec (.rd t r) s = .next
          { s with cmd := w, idle := false, slot := .full w true, fsm := .poll, phy := m, draws := n } ∧
        exec (.wr t r v) s = .next
          { s with cmd := w, idle := false, slot := .full w true, fsm := .poll, phy := m, draws := n }

/-- In F_POLL READ and WRITE answer the state with POLLS one higher and FSM F_CAPTURE if STAT.IDLE is 1, F_WAIT if it is
0; nothing else changes, the reading of STAT.IDLE included. (42_transaction_engine.md R139; 20_memory.md R59) -/
def Obligations.PollReadsIdleOnce : Prop :=
  ∀ (s : State) (t r : BitVec 8) (v : Half), s.life = .ready → t.toNat < 32 → r.toNat < 32 → s.fsm = .poll →
    (s.idle = true →
      exec (.rd t r) s = .next { s with polls := s.polls + 1, fsm := .capture } ∧
      exec (.wr t r v) s = .next { s with polls := s.polls + 1, fsm := .capture }) ∧
    (s.idle = false →
      exec (.rd t r) s = .next { s with polls := s.polls + 1, fsm := .wait } ∧
      exec (.wr t r v) s = .next { s with polls := s.polls + 1, fsm := .wait })

/-- In F_WAIT with POLLS = 50 READ and WRITE answer the state with ERR Timeout and FSM F_RELEASE, CMD, STAT.IDLE, MBE
and the slot as they were; with another count they answer the state with FSM F_POLL. (42_transaction_engine.md R140;
42_transaction_engine.md R141; 60_exceptions.md R184) -/
def Obligations.WaitEndsAtTheBudget : Prop :=
  ∀ (s : State) (t r : BitVec 8) (v : Half), s.life = .ready → t.toNat < 32 → r.toNat < 32 → s.fsm = .wait →
    (s.polls = 50 →
      exec (.rd t r) s = .next { s with err := .timeout, fsm := .release } ∧
      exec (.wr t r v) s = .next { s with err := .timeout, fsm := .release }) ∧
    (s.polls ≠ 50 →
      exec (.rd t r) s = .next { s with fsm := .poll } ∧ exec (.wr t r v) s = .next { s with fsm := .poll })

/-- In F_CAPTURE with D.OP = Read, READ and WRITE answer the state with RDATA the DATA field of CMD, ERR OK and FSM
F_RELEASE; with D.OP = Write the same without RDATA; nothing else changes. The DATA field is bits [15:0] of CMD at
R84's field positions, and 16 bits at the configured place under any other (D2: the positions are a parameter).
(R142) -/
def Obligations.CaptureTakesTheDataField : Prop :=
  ∀ (s : State) (t r : BitVec 8) (v : Half), s.life = .ready → t.toNat < 32 → r.toNat < 32 → s.fsm = .capture →
    (s.d.op = .read →
      exec (.rd t r) s =
        .next { s with rdata := getField s.codes.layout.data 16 s.cmd, err := .ok, fsm := .release } ∧
      exec (.wr t r v) s =
        .next { s with rdata := getField s.codes.layout.data 16 s.cmd, err := .ok, fsm := .release } ∧
      (s.codes.layout = defaultLayout →
        getField s.codes.layout.data 16 s.cmd = s.cmd.extractLsb' 0 16)) ∧
    (s.d.op = .write →
      exec (.rd t r) s = .next { s with err := .ok, fsm := .release } ∧
      exec (.wr t r v) s = .next { s with err := .ok, fsm := .release })

/-- In F_RELEASE READ and WRITE answer the state with GUARD AVAILABLE, FSM F_IDLE, the owner's request removed and its
response written: OK with RDATA if ERR = OK and D.OP = Read, OK without data if ERR = OK and D.OP = Write, the error
ERR without data otherwise; nothing else changes. (That OWNER and the latches keep their values after release, where
R23 and R30 leave them unspecified, is the model's choice, log 29.) (42_transaction_engine.md R143; 60_exceptions.md
R189; 30_encoding.md R83) -/
def Obligations.ReleaseAnswersTheOwner : Prop :=
  ∀ (s : State) (t r : BitVec 8) (v : Half), s.life = .ready → t.toNat < 32 → r.toNat < 32 → s.fsm = .release → ∀ e : Response,
    ((s.err = .ok ∧ s.d.op = .read ∧ e = { status := .ok, data := some s.rdata }) ∨
      (s.err = .ok ∧ s.d.op = .write ∧ e = { status := .ok, data := none }) ∨
      (s.err ≠ .ok ∧ e = { status := s.err, data := none })) →
    exec (.rd t r) s = .next
      { s with
        guard := .available, fsm := .idle, pend := tableErase s.pend s.owner,
        resp := tablePut s.resp s.owner e } ∧
    exec (.wr t r v) s = .next
      { s with
        guard := .available, fsm := .idle, pend := tableErase s.pend s.owner,
        resp := tablePut s.resp s.owner e }

/-- If READ or WRITE answers a next state: LIFE, PROTO, DIV, INT_EN, INT_PEND and the clock are unchanged; MBE changes
only in F_ENABLE; CMD, STAT.IDLE and the slot only in F_ISSUE; mailboxes only in F_RELEASE and only the owner's;
GUARD only in F_IDLE and F_RELEASE; OWNER and the latches only in F_IDLE; POLLS only in F_IDLE and F_POLL; RDATA
only in F_CAPTURE; and every byte of memory reads as before, except, in F_ISSUE, the two bytes of the location the
replaced command in the slot writes. (That OWNER and the latches keep their values after F_RELEASE is the model's
choice, log 29; that memory holds what was handed to a PHY, log 16; the bytes of a location, log 15.)
(42_transaction_engine.md R144; 42_transaction_engine.md R154; 60_exceptions.md R187; 20_memory.md R71) -/
def Obligations.TransferFrame : Prop :=
  ∀ (i : Instr) (s u : State), ((∃ t r, i = .rd t r) ∨ ∃ t r v, i = .wr t r v) → exec i s = .next u →
    u.life = s.life ∧ u.proto = s.proto ∧ u.div = s.div ∧ u.intEn = s.intEn ∧ u.intPend = s.intPend ∧
    u.env = s.env ∧ u.codes = s.codes ∧ u.pclk = s.pclk ∧ u.mdc = s.mdc ∧ u.agenda = s.agenda ∧
    u.cur = s.cur ∧
    (s.fsm ≠ .enable → u.mbe = s.mbe) ∧
    (s.fsm ≠ .issue → u.cmd = s.cmd ∧ u.idle = s.idle ∧ u.slot = s.slot ∧ u.draws = s.draws) ∧
    (s.fsm ≠ .release → u.pend = s.pend ∧ u.resp = s.resp) ∧
    (∀ q, q ≠ s.owner → tableFind u.pend q = tableFind s.pend q ∧ tableFind u.resp q = tableFind s.resp q) ∧
    (s.fsm ≠ .idle → s.fsm ≠ .release → u.guard = s.guard) ∧
    (s.fsm ≠ .idle → u.owner = s.owner ∧ u.d = s.d) ∧
    (s.fsm ≠ .idle → s.fsm ≠ .poll → u.polls = s.polls) ∧
    (s.fsm ≠ .capture → u.rdata = s.rdata) ∧
    (s.fsm ≠ .check → s.fsm ≠ .wait → s.fsm ≠ .capture → s.ProtoInv → u.err = s.err) ∧
    (s.fsm ≠ .issue ∨ slotWrite s.codes s.slot = none → ∀ a, readByte u.phy a = readByte s.phy a) ∧
    (∀ t r v, slotWrite s.codes s.slot = some (t, r, v) → ∀ a, a ≠ phyAddr t r → a ≠ phyAddr t r + 1 →
      readByte u.phy a = readByte s.phy a)

/-- From every state that meets ProtoInv and PollsInv, a step that answers a next state leaves FSM as it was or makes
one of the eleven transitions of the table, under its condition and with its effects. (42_transaction_engine.md
R144; 10_state.md R24) -/
def Obligations.FsmTransitionsAreTheTable : Prop :=
  ∀ s t : State, s.ProtoInv → s.PollsInv → step s = .next t →
    t.fsm = s.fsm ∨
    (s.fsm = .idle ∧ t.fsm = .check ∧ s.life = .ready ∧ t.guard = .held ∧ t.polls = 0 ∧
      ∃ q req, tableFind s.pend q = some req ∧ isTransfer req = true ∧ t.owner = q ∧
        decodeRequest req = .instr (latched t)) ∨
    (s.fsm = .check ∧ t.fsm = .enable ∧ (s.proto = 0b00#2 ∨ s.proto = 0b01#2)) ∨
    (s.fsm = .check ∧ t.fsm = .release ∧ (s.proto = 0b10#2 ∨ s.proto = 0b11#2) ∧
      t.err = .unsupportedProtocol) ∨
    (s.fsm = .enable ∧ t.fsm = .issue ∧ t.mbe = true) ∨
    (s.fsm = .issue ∧ t.fsm = .poll ∧ t.idle = false ∧ (∃ ov, t.slot = .full t.cmd ov) ∧
      encodeTransaction s.codes.params s.proto s.d.op s.d.tgt s.d.reg s.d.wdata = some t.cmd) ∨
    (s.fsm = .poll ∧ t.fsm = .capture ∧ s.idle = true ∧ t.polls = s.polls + 1) ∨
    (s.fsm = .poll ∧ t.fsm = .wait ∧ s.idle = false ∧ t.polls = s.polls + 1) ∨
    (s.fsm = .wait ∧ t.fsm = .poll ∧ s.polls < 50) ∨
    (s.fsm = .wait ∧ t.fsm = .release ∧ s.polls = 50 ∧ t.err = .timeout) ∨
    (s.fsm = .capture ∧ t.fsm = .release ∧ t.err = .ok ∧ (s.d.op = .read → t.rdata = cmdData s)) ∨
    (s.fsm = .release ∧ t.fsm = .idle ∧ t.guard = .available ∧
      tableFind t.resp s.owner = some (releaseResponse s) ∧ tableFind t.pend s.owner = none)

/-- From every state that meets PollsInv with FSM not F_IDLE: executing the latched READ or WRITE while READY answers a
next state with fewer transitions remaining, at most 105 before; and any step of the machine keeps FSM and POLLS or
lowers that number. (42_transaction_engine.md R146; 42_transaction_engine.md R150) -/
def Obligations.EngineStepsRunOut : Prop :=
  (∀ s : State, s.PollsInv → s.fsm ≠ .idle → s.life = .ready →
    s.remaining ≤ 105 ∧ ∃ t, exec (latched s) s = .next t ∧ t.remaining < s.remaining) ∧
  (∀ s t : State, s.PollsInv → s.fsm ≠ .idle → step s = .next t →
    (t.fsm = s.fsm ∧ t.polls = s.polls) ∨ t.remaining < s.remaining)

/-- From every READY state in flight that meets PollsInv, outside SIM, with no other agent's turn given and no lifecycle
operation waiting (the engine's own steps only, R231 (a); the default turn is the model's choice, log 1), at most
105 steps lead to FSM F_IDLE with GUARD AVAILABLE, the owner's request removed and a response delivered.
(42_transaction_engine.md R146; 42_transaction_engine.md R150; 70_reset_and_hazards.md R231) -/
def Obligations.TransactionAlwaysEnds : Prop :=
  ∀ s : State, s.PollsInv → s.fsm ≠ .idle → s.life = .ready → s.env ≠ .sim → s.agenda = [] →
    waitingLifecycle s = [] →
    ∃ n t e, n ≤ 105 ∧ runSteps n s = .next t ∧ t.Answered s.owner e

/-- In SIM-STUCK, a READ or WRITE about to be served under a recognised protocol ends after 105 steps with response
Timeout, POLLS = 50, MBE 1, STAT.IDLE 0, the slot still full with the issued word in CMD, and the guard free.
(AboutToServe fixes the agenda to one turn; every later step is the block's own turn order, DESIGN CHOICE, log 1.
The SIM-STUCK field is log 17; the controller has no turn in this run, so nothing rests on its turn passing there,
only on no completion coming ahead of a turn as in SIM. That POLLS and the operand latches, of which CMD is said to
be the encoding, are read back after the release, in F_IDLE, rests on their keeping their values then: DESIGN
CHOICE, log 29.) (42_transaction_engine.md R150; 42_transaction_engine.md R141; 20_memory.md R75) -/
def Obligations.StuckControllerTimesOutAfterFifty : Prop :=
  ∀ (s : State) (q : Nat) (i : Instr), s.AboutToServe q i → s.env = .simStuck → recognised s.proto = true →
    ∃ t, runSteps 105 s = .next t ∧ t.Answered q { status := .timeout, data := none } ∧
      t.polls = 50 ∧ t.mbe = true ∧ t.idle = false ∧ (∃ ov, t.slot = .full t.cmd ov) ∧
      encodeTransaction t.codes.params t.proto t.d.op t.d.tgt t.d.reg t.d.wdata = some t.cmd

/-- In SIM, for codes that meet R8, with a recognised protocol and the slot empty, WR t, r, v about to be served ends
after 8 steps with response OK, location {t, r} reading v, every other byte unchanged (the bytes of a location are
the model's representation, DESIGN CHOICE, log 15), POLLS = 1, MBE 1, STAT.IDLE 1, the slot empty, LIFE, PROTO and
the environment as before. (AboutToServe fixes the agenda to one turn; every later step is the block's own turn
order, DESIGN CHOICE, log 1. SIM's completion ahead of any turn is log 17. That POLLS is read back after the
release, in F_IDLE, rests on the latches keeping their values then: DESIGN CHOICE, log 29.)
(42_transaction_engine.md R132; 20_memory.md R75; 20_memory.md R67) -/
def Obligations.SimWriteReachesThePhy : Prop :=
  ∀ (s : State) (q : Nat) (t r : BitVec 8) (v : Half), s.AboutToServe q (.wr t r v) → s.env = .sim →
    s.codes.Ok → recognised s.proto = true → s.slot = .empty →
    ∃ u, runSteps 8 s = .next u ∧ u.Answered q { status := .ok, data := none } ∧
      phyRead u.phy (lowAddr t) (lowAddr r) = v ∧
      (∀ a, a ≠ phyAddr (lowAddr t) (lowAddr r) → a ≠ phyAddr (lowAddr t) (lowAddr r) + 1 →
        readByte u.phy a = readByte s.phy a) ∧
      u.polls = 1 ∧ u.mbe = true ∧ u.idle = true ∧ u.slot = .empty ∧ u.life = s.life ∧ u.proto = s.proto ∧
      u.env = s.env

/-- In SIM, for codes that meet R8, with a recognised protocol and the slot empty, RD t, r about to be served ends after
8 steps with response OK and the content of {t, r} (PHY_INIT where nothing has been written), memory unchanged,
CMD.DATA that content, POLLS = 1, MBE 1, STAT.IDLE 1 and the slot empty. (AboutToServe fixes the agenda to one turn;
every later step is the block's own turn order, DESIGN CHOICE, log 1. SIM's completion ahead of any turn is log 17.
That POLLS is read back after the release, in F_IDLE, rests on the latches keeping their values then: DESIGN CHOICE,
log 29.) (42_transaction_engine.md R131; 20_memory.md R75; 20_memory.md R67) -/
def Obligations.SimReadReturnsTheLocation : Prop :=
  ∀ (s : State) (q : Nat) (t r : BitVec 8), s.AboutToServe q (.rd t r) → s.env = .sim →
    s.codes.Ok → recognised s.proto = true → s.slot = .empty →
    ∃ u, runSteps 8 s = .next u ∧
      u.Answered q { status := .ok, data := some (phyRead s.phy (lowAddr t) (lowAddr r)) } ∧
      u.phy = s.phy ∧ cmdData u = phyRead s.phy (lowAddr t) (lowAddr r) ∧
      u.polls = 1 ∧ u.mbe = true ∧ u.idle = true ∧ u.slot = .empty

/-- In SIM, for codes that meet R8, WR t, r, v about to be served answers OK after 8 steps with PHY[t][r] = v. (1) The
same requester taking the response, submitting RD t, r and being served gets OK with v after 10 more steps. (2)
After any number of further steps, under any agenda of turns, in which no WRITE to {t, r} holds the guard: PHY[t][r]
is still v; a READ of {t, r} at its release step, by any requester, answers OK with v; and a READ of {t, r} about to
be served then answers OK with v after 8 steps. (AboutToServe fixes the agenda to one turn; every later step is the
block's own turn order, DESIGN CHOICE, log 1, which clauses (1) and the last part of (2) rest on; the rest of (2)
holds for every turn order. SIM's completion ahead of any turn is log 17.) (20_memory.md R76; 20_memory.md R62;
20_memory.md R75) -/
def Obligations.SimRoundTrip : Prop :=
  ∀ (s : State) (q : Nat) (t r : BitVec 8) (v : Half), s.AboutToServe q (.wr t r v) → s.env = .sim →
    s.codes.Ok → recognised s.proto = true → s.slot = .empty → q < Config.nReq →
    ∃ u, runSteps 8 s = .next u ∧ u.Answered q { status := .ok, data := none } ∧
      phyRead u.phy (lowAddr t) (lowAddr r) = v ∧
      (∃ w, runSteps 10
          { u with agenda := [.takeResponse q, .submit q { bareRequest 0#3 with tgt := t, reg := r }, .engine q] } =
            .next w ∧
        w.Answered q { status := .ok, data := some v }) ∧
      ∀ (l : List Turn) (n : Nat) (w : State), runSteps n { u with agenda := l } = .next w →
        NoWriteDuring (lowAddr t) (lowAddr r) n { u with agenda := l } →
          phyRead w.phy (lowAddr t) (lowAddr r) = v ∧
          (w.fsm = .release → w.d.op = .read → w.d.tgt = lowAddr t → w.d.reg = lowAddr r →
            ∀ x, step w = .next x → x.fsm = .idle →
              tableFind x.resp w.owner = some { status := .ok, data := some v }) ∧
          ∀ q', { w with agenda := [.engine q'] }.AboutToServe q' (.rd t r) →
            ∃ x, runSteps 8 { w with agenda := [.engine q'] } = .next x ∧
              x.Answered q' { status := .ok, data := some v }

/-- With PROTO 0b10 or 0b11, a READ or WRITE about to be served ends after 3 steps with response UnsupportedProtocol,
the register block, the slot and memory exactly as before, no poll made and the guard free. (AboutToServe fixes the
agenda to one turn; every later step is the block's own turn order, DESIGN CHOICE, log 1. That POLLS is read back
after the release, in F_IDLE, rests on the latches keeping their values then: DESIGN CHOICE, log 29.)
(60_exceptions.md R181; 60_exceptions.md R187; 42_transaction_engine.md R151) -/
def Obligations.UnrecognisedProtocolTouchesNothing : Prop :=
  ∀ (s : State) (q : Nat) (i : Instr), s.AboutToServe q i → recognised s.proto = false →
    ∃ t, runSteps 3 s = .next t ∧ t.Answered q { status := .unsupportedProtocol, data := none } ∧
      s.SameRegisters t ∧ t.polls = 0

/-- With MBE 1 and the slot full and not overlapped: each read form answers the state with CMD.DATA the value read (the
free value in the general environment, the location's content in SIM) and every other bit of CMD kept; each write
form answers the state with its location written and CMD unchanged; both with STAT.IDLE 1, the slot empty, and
nothing else changed but, for a drawn value, the count of draws. (R70 says of a read only that it returns any 16-bit
value: that in the general environment it is a free function at the model's own count of draws is DESIGN CHOICE, log
12. That a Write is recorded in memory in the general environment too is DESIGN CHOICE, log 16: R70 leaves what the
PHY does with the value outside the block. The read clause covers SIM-STUCK as well, where the controller's turn
never executes a form: the environment field is log 17.) (20_memory.md R67; 20_memory.md R70; 20_memory.md R75) -/
def Obligations.CompletionPerformsTheCommand : Prop :=
  ∀ (s : State) (w : Word), s.mbe = true → s.slot = .full w false → ∀ (t r : Addr) (v : Half),
    (∃ n, ∀ i, i = .c22Read t r ∨ i = .c45Read t r →
      exec i s = .next
        { s with
          cmd := setField s.codes.layout.data (memRead t r s) s.cmd, idle := true, slot := .empty,
          draws := n }) ∧
    (s.env = .general → memRead t r s = Config.freeData s.draws) ∧
    (s.env ≠ .general → memRead t r s = phyRead s.phy t r) ∧
    (∀ i, i = .c22Write t r v ∨ i = .c45Write t r v →
      exec i s = .next { s with phy := phyWrite s.phy t r v, idle := true, slot := .empty })

/-- With MBE 1 and the slot full and overlapped: each read form answers the state with CMD.DATA the next free value;
each write form the state with its location written exactly when the next free choice says so; both with STAT.IDLE
1, the slot empty, one draw counted and nothing else changed. (R73 leaves the outcome free. That value and choice
are free functions taken at the count of draws is DESIGN CHOICE, log 13; that a Write performed is recorded in
memory in every environment is DESIGN CHOICE, log 16.) (20_memory.md R73) -/
def Obligations.OverlappedCompletionIsFree : Prop :=
  ∀ (s : State) (w : Word), s.mbe = true → s.slot = .full w true → ∀ (t r : Addr) (v : Half),
    (∀ i, i = .c22Read t r ∨ i = .c45Read t r →
      exec i s = .next
        { s with
          cmd := setField s.codes.layout.data (Config.freeData s.draws) s.cmd, idle := true, slot := .empty,
          draws := s.draws + 1 }) ∧
    (∀ i, i = .c22Write t r v ∨ i = .c45Write t r v →
      exec i s = .next
        { s with
          phy := if Config.freeChoice s.draws then phyWrite s.phy t r v else s.phy, idle := true,
          slot := .empty, draws := s.draws + 1 })

/-- In every state with MBE 0 or the slot empty, each of the four command forms answers the same state. (That an
execution then leaves the state as it is, is DESIGN CHOICE, log 28; that no command completes with the mode off is,
in R68's words, 'this spec's reading'.) (20_memory.md R68) -/
def Obligations.CompletionWaitsForTheBus : Prop :=
  ∀ (s : State), (s.mbe = false ∨ s.slot = .empty) → ∀ (t r : Addr) (v : Half),
    exec (.c22Read t r) s = .next s ∧ exec (.c22Write t r v) s = .next s ∧
    exec (.c45Read t r) s = .next s ∧ exec (.c45Write t r v) s = .next s

/-- If a command form answers a next state: every bit of CMD outside its DATA field (bits [31:16] at R84's positions),
MBE, DIV, INT_EN, INT_PEND, every latch, mailbox and mode are unchanged; a read form leaves every byte of memory; a
write form leaves CMD and every byte but the two of its location (the bytes of a location are the model's
representation, DESIGN CHOICE, log 15). (20_memory.md R67; 20_memory.md R73; 10_state.md R37) -/
def Obligations.CommandFrame : Prop :=
  ∀ (s u : State) (t r : Addr) (v : Half) (i : Instr),
    (i = .c22Read t r ∨ i = .c45Read t r ∨ i = .c22Write t r v ∨ i = .c45Write t r v) →
    exec i s = .next u →
    u.life = s.life ∧ u.proto = s.proto ∧ u.guard = s.guard ∧ u.owner = s.owner ∧ u.fsm = s.fsm ∧ u.d = s.d ∧
    u.polls = s.polls ∧ u.rdata = s.rdata ∧ u.err = s.err ∧ u.pend = s.pend ∧ u.resp = s.resp ∧
    u.mbe = s.mbe ∧ u.div = s.div ∧ u.intEn = s.intEn ∧ u.intPend = s.intPend ∧ u.env = s.env ∧
    u.codes = s.codes ∧ u.pclk = s.pclk ∧ u.mdc = s.mdc ∧ u.agenda = s.agenda ∧ u.cur = s.cur ∧
    (s.codes.layout.Ok → ∀ b, ¬ (s.codes.layout.data ≤ b ∧ b < s.codes.layout.data + 16) →
      u.cmd.getLsbD b = s.cmd.getLsbD b) ∧
    (s.codes.layout = defaultLayout → u.cmd.extractLsb' 16 16 = s.cmd.extractLsb' 16 16) ∧
    (i = .c22Read t r ∨ i = .c45Read t r → ∀ a, readByte u.phy a = readByte s.phy a) ∧
    (i = .c22Write t r v ∨ i = .c45Write t r v →
      u.cmd = s.cmd ∧
        ∀ a, a ≠ phyAddr t r → a ≠ phyAddr t r + 1 → readByte u.phy a = readByte s.phy a)

/-- In every state, DIV8 to DIV96 answer the state with CLKCFG.DIV 0 to 5 and the MDIO clock the peripheral clock
divided by 8, 16, 32, 48, 64, 96; every other field, every byte of memory included, is unchanged. (The MDIO clock
field is the model's rendering, log 4.) (40_clock_divisor.md R101; 30_encoding.md R91; 70_reset_and_hazards.md R232) -/
def Obligations.DivisorCodesProgramTheClock : Prop :=
  ∀ s : State,
    exec .div8 s = .next { s with div := 0b000#3, mdc := s.pclk.toNat / 8 } ∧
    exec .div16 s = .next { s with div := 0b001#3, mdc := s.pclk.toNat / 16 } ∧
    exec .div32 s = .next { s with div := 0b010#3, mdc := s.pclk.toNat / 32 } ∧
    exec .div48 s = .next { s with div := 0b011#3, mdc := s.pclk.toNat / 48 } ∧
    exec .div64 s = .next { s with div := 0b100#3, mdc := s.pclk.toNat / 64 } ∧
    exec .div96 s = .next { s with div := 0b101#3, mdc := s.pclk.toNat / 96 }

/-- The machine's reset state has LIFE UNINIT, GUARD AVAILABLE, FSM F_IDLE, every mailbox empty, MBE 0, STAT.IDLE 1 and
the slot empty. (STAT.IDLE 1 is the spec's decision D19, log 7; the entries R43 leaves unspecified are the model's
choice, log 5, and not stated here.) (10_state.md R43; 70_reset_and_hazards.md R211) -/
def Obligations.ResetHasTheStatedValues : Prop :=
  Sys2Proof.Machine.State.reset.IsReset

/-- State.reset meets State.Inv. (10_state.md R43; 10_state.md R25; 10_state.md R41) -/
def Obligations.ResetMeetsTheInvariant : Prop :=
  Sys2Proof.Machine.State.reset.Inv

/-- Every state that has the values R43 states, with the MDIO space in its canonical form (the model's representation,
log 15) and no bit of INT_EN or INT_PEND beyond the N_INT that exist, meets State.Inv, in every environment, for
every choice of codes that meets R8 and for every value of PROTO, OWNER, the latches, POLLS, RDATA, ERR, DIV, CMD,
INT_EN and INT_PEND. (10_state.md R43; 10_state.md R25; 10_state.md R41) -/
def Obligations.EveryResetStateMeetsTheInvariant : Prop :=
  ∀ s : State, s.IsReset → s.codes.Ok → s.IntInv → Memory.wf s.phy → s.Inv

/-- For every state that meets State.Inv (codes that meet R8, guard and FSM agree, idle and slot agree, the slot holds
an encoded word, polls are within the budget, nothing is in flight unless READY, no interrupt enabled, a legal
divisor code and the MDIO clock field the quotient of the peripheral clock by its divisor once READY, one
outstanding operation a requester, pending requests well-formed, the request in flight the latched one, a recognised
protocol past the check, a legal error at release, INT_EN and INT_PEND within N_INT bits of 32, in SIM a slot never
overlapped and no failed poll, memory in canonical form), a step that answers a next state answers one that meets
it. (The clause of ReadyInv that mdc is the quotient of pclk is the model's own: the two clock fields and the
generator that runs from INITIALIZE's step on are DESIGN CHOICE, log 4, and that pclk never changes is DESIGN
CHOICE, log 30, both unsafe. The clause on SIM rests on log 17; the forms of memory and mailbox tables are the
model's representation, DESIGN CHOICE, log 15 and 32.) (10_state.md R25; 10_state.md R31; 10_state.md R41;
41_command_encoder.md R118; 42_transaction_engine.md R134; 43_lifecycle.md R170; 60_exceptions.md R193; 20_memory.md
R51; 20_memory.md R56; 20_memory.md R75) -/
def Obligations.StepKeepsTheInvariant : Prop :=
  ∀ s t : State, s.Inv → step s = .next t → t.Inv

/-- The reset state meets the invariant, and for every state that meets it a step that answers a next state answers one
that meets it. (R25) -/
def Obligations.GuardHeldExactlyInFlight : Prop :=
  State.reset.GuardInv ∧ ∀ s t : State, s.GuardInv → step s = .next t → t.GuardInv

/-- For every state that meets SlotInv, a step that answers a next state answers one that meets it. (10_state.md R41;
20_memory.md R66; 20_memory.md R72) -/
def Obligations.IdleExactlyWhenSlotEmpty : Prop :=
  ∀ s t : State, s.SlotInv → step s = .next t → t.SlotInv

/-- For every state that meets MailInv, a step that answers a next state answers one that meets it. (The order of the
mailbox tables, by rising requester, is the model's own representation: DESIGN CHOICE, log 32.) (10_state.md R31;
42_transaction_engine.md R133) -/
def Obligations.MailboxesHoldOneOperation : Prop :=
  ∀ s t : State, s.MailInv → step s = .next t → t.MailInv

/-- For every state whose memory has rising addresses inside the 1024 locations, a step that answers a next state
answers one whose memory has. (R52 gives the 1024 locations; the canonical form, a list of bytes with rising
addresses, is the model's own representation of them: DESIGN CHOICE, log 15.) (20_memory.md R52) -/
def Obligations.MemoryFormKept : Prop :=
  ∀ s t : State, Memory.wf s.phy → step s = .next t → Memory.wf t.phy

/-- For every step that answers a next state: LIFE is unchanged, or it was UNINIT and some requester's pending
INITIALIZE was served, LIFE is now READY and DIVSEL covers its frequency, or LIFE is now FAILED and it does not. So
READY and FAILED are left by no step. (R163) -/
def Obligations.LifeChangesOnlyByInitialise : Prop :=
  ∀ s t : State, step s = .next t →
    t.life = s.life ∨
    (s.life = .uninit ∧ ∃ q req f p, tableFind s.pend q = some req ∧ decodeRequest req = .instr (.init f p) ∧
      ((t.life = .ready ∧ ∃ x, divsel f = some x) ∨ (t.life = .failed ∧ divsel f = none)))

/-- For every READY state, a step that answers a next state leaves LIFE, PROTO, CLKCFG.DIV and INT_EN as they were; and
in every state it leaves the configuration of the command word (start fields, operation codes, field positions) as
it was. (That the configuration stands in a field of State is the model's choice, log 9.) (10_state.md R22;
30_encoding.md R86; 10_state.md R34; 20_memory.md R74; 60_exceptions.md R193) -/
def Obligations.ConfigurationFixedOnceReady : Prop :=
  ∀ s t : State, step s = .next t →
    t.codes = s.codes ∧
    (s.life = .ready → t.life = .ready ∧ t.proto = s.proto ∧ t.div = s.div ∧ t.intEn = s.intEn)

/-- If any instruction but INIT answers a next state, INT_EN and INT_PEND are unchanged, READ, WRITE, BUS_ENABLE and
BUS_DISABLE among them; if INIT does, INT_EN is 0 or unchanged. (R193) -/
def Obligations.InterruptsWrittenOnlyByInitialise : Prop :=
  ∀ (i : Instr) (s t : State), exec i s = .next t →
    ((∀ f p, i ≠ .init f p) → t.intEn = s.intEn ∧ t.intPend = s.intPend) ∧
    (∀ f p, i = .init f p → t.intEn = 0#32 ∨ t.intEn = s.intEn)

/-- From every state that meets GuardInv with GUARD HELD, a step that answers a next state leaves GUARD HELD with the
same OWNER and the same operand latches, or it is the release step: FSM was F_RELEASE, GUARD is AVAILABLE and the
owner has its response. (42_transaction_engine.md R147; 42_transaction_engine.md R145; 20_memory.md R62) -/
def Obligations.GuardHeldUntilRelease : Prop :=
  ∀ s t : State, s.GuardInv → s.guard = .held → step s = .next t →
    (t.guard = .held ∧ t.owner = s.owner ∧ t.d = s.d) ∨
    (s.fsm = .release ∧ t.guard = .available ∧ tableFind t.resp s.owner = some (releaseResponse s))

/-- For every step that answers a next state and every requester with a request pending: the same request is still
pending, or it is gone and the requester has a response. (42_transaction_engine.md R148; 60_exceptions.md R188;
10_state.md R31) -/
def Obligations.PendingRequestIsAnsweredOrKept : Prop :=
  ∀ (s t : State) (q : Nat) (req : Request), tableFind s.pend q = some req → step s = .next t →
    tableFind t.pend q = some req ∨ (tableFind t.pend q = none ∧ ∃ e, tableFind t.resp q = some e)

/-- When no SIM completion comes first and the next turn is given: the engine in F_IDLE executes the chosen requester's
decoded READ or WRITE; the engine in flight executes the latched transaction for its owner; the lifecycle controller
executes the requester's decoded operation, but in SIM refuses a BUS_DISABLE while a transaction is in flight as
disableInFlight (R75 (c), log 17); the controller executes the decoded word of its slot if MBE is 1, outside SIM-
STUCK; the clock generator, an agent of the model's own that R13 does not list (DESIGN CHOICE, log 4), executes the
decoded CLKCFG.DIV once READY. The step is exec of that instruction with the turn taken off the agenda and the
requester served noted (the model's own fields, log 1 and 2). (00_scope.md R13; 42_transaction_engine.md R134;
43_lifecycle.md R168; 20_memory.md R67; 20_memory.md R75) -/
def Obligations.StepRunsTheFetchedInstruction : Prop :=
  ∀ (s : State) (rest : List Turn), simCompletes s = false →
    (∀ q req i, s.agenda = .engine q :: rest → s.fsm = .idle → tableFind s.pend q = some req →
      decode s.codes.params (.request req) = .instr i → isTransfer req = true →
      step s = exec i { s with agenda := rest, cur := q }) ∧
    (∀ q, s.agenda = .engine q :: rest → s.fsm ≠ .idle →
      step s = exec (latched s) { s with agenda := rest, cur := s.owner }) ∧
    (∀ q req i, s.agenda = .lifecycle q :: rest → tableFind s.pend q = some req →
      decode s.codes.params (.request req) = .instr i → isLifecycle req = true →
      ¬ (i = .bdis ∧ s.env = .sim ∧ s.fsm ≠ .idle) →
      step s = exec i { s with agenda := rest, cur := q }) ∧
    (∀ q req, s.agenda = .lifecycle q :: rest → tableFind s.pend q = some req →
      decode s.codes.params (.request req) = .instr .bdis → s.env = .sim → s.fsm ≠ .idle →
      step s = .refused .disableInFlight) ∧
    (∀ w ov i, s.agenda = .controller :: rest → s.env ≠ .simStuck → s.slot = .full w ov → s.mbe = true →
      decode s.codes.params (.command w) = .instr i → step s = exec i { s with agenda := rest }) ∧
    (∀ i, s.agenda = .clockGenerator :: rest → s.life = .ready → decode s.codes.params (.divisor s.div) = .instr i →
      step s = exec i { s with agenda := rest })

/-- In SIM with FSM = F_POLL, MBE 1 and a command in the slot that decodes, the step is the execution of that command,
the agenda untouched. (R75 (b) says that the completion is taken before the engine's next poll; that it comes at
F_POLL, ahead of any turn, is DESIGN CHOICE, log 17.) (20_memory.md R75) -/
def Obligations.SimCompletesBeforeThePoll : Prop :=
  ∀ (s : State) (w : Word) (ov : Bool) (i : Instr), s.env = .sim → s.fsm = .poll → s.mbe = true →
    s.slot = .full w ov → decode s.codes.params (.command w) = .instr i → step s = exec i s

/-- On a submission turn of an existing requester with both mailboxes empty (no SIM completion first): a request that
decodes and is not refused is posted and nothing else changes but the agenda; a reserved req_op is refused as
reservedOperation; a decoded one that LIFE or its operands forbid is refused with that reason; in SIM a BUS_DISABLE
in flight is refused as disableInFlight (R75 (c), log 17); with a mailbox occupied it is refused as mailboxBusy (the
model's choice, log 19). (42_transaction_engine.md R133; 10_state.md R31; 30_encoding.md R93; 20_memory.md R75) -/
def Obligations.SubmissionPostsTheRequest : Prop :=
  ∀ (s : State) (rest : List Turn) (q : Nat) (req : Request), simCompletes s = false →
    s.agenda = .submit q req :: rest → q < Config.nReq →
    (tableFind s.pend q = none → tableFind s.resp q = none → ∀ i, decodeRequest req = .instr i →
      refusal i s.life = none → ¬ (i = .bdis ∧ s.env = .sim ∧ s.fsm ≠ .idle) →
      step s = .next { s with agenda := rest, pend := tablePut s.pend q req }) ∧
    (tableFind s.pend q = none → tableFind s.resp q = none → 5 ≤ req.op.toNat →
      step s = .refused (.reservedOperation req.op)) ∧
    (tableFind s.pend q = none → tableFind s.resp q = none → ∀ i e, decodeRequest req = .instr i →
      refusal i s.life = some e → step s = .refused e) ∧
    (tableFind s.pend q = none → tableFind s.resp q = none → decodeRequest req = .instr .bdis →
      s.life = .ready → s.env = .sim → s.fsm ≠ .idle → step s = .refused .disableInFlight) ∧
    (tableFind s.pend q ≠ none ∨ tableFind s.resp q ≠ none → step s = .refused .mailboxBusy)

/-- On a takeResponse turn (no SIM completion first) the requester's response is cleared and every other mailbox and
field is as before but the agenda; on a raiseInterrupts turn the given bits below N_INT are set in INT_PEND and
nothing else changes but the agenda. (10_state.md R31; 10_state.md R39) -/
def Obligations.HostTurnsChangeOneField : Prop :=
  ∀ (s : State) (rest : List Turn), simCompletes s = false →
    (∀ q, s.agenda = .takeResponse q :: rest →
      ∃ l, step s = .next { s with agenda := rest, resp := l } ∧ tableFind l q = none ∧
        ∀ q', q' ≠ q → tableFind l q' = tableFind s.resp q') ∧
    (∀ n, s.agenda = .raiseInterrupts n :: rest →
      ∃ b, step s = .next { s with agenda := rest, intPend := b } ∧
        ∀ i, b.getLsbD i = (s.intPend.getLsbD i || (decide (i < Config.nInt) && n.getLsbD i)))

/-- From every READY state in F_IDLE with pending requests well-formed and in order: with an empty agenda, no lifecycle
operation waiting and at least one READ or WRITE pending, the step is the acquire of some requester that waits,
whatever the free grant choice is; and for each requester that waits there is a turn under which the step is its
acquire. (The order of the block's own turns is the model's choice, log 1.) (42_transaction_engine.md R134;
42_transaction_engine.md R135) -/
def Obligations.ArbiterGrantsAWaitingRequester : Prop :=
  ∀ s : State, s.life = .ready → s.fsm = .idle → s.PendInv → tableSorted s.pend →
    (s.agenda = [] → waitingLifecycle s = [] → waitingTransfers s ≠ [] →
      ∃ q ∈ waitingTransfers s, ∃ t, step s = .next t ∧ t.owner = q ∧ t.guard = .held ∧ t.fsm = .check) ∧
    (∀ q ∈ waitingTransfers s, ∃ t, step { s with agenda := [.engine q] } = .next t ∧ t.owner = q ∧
      t.guard = .held ∧ t.fsm = .check)

/-- For every state and every 32-bit word that decodes to a command form under the state's codes, placing it sets MBE,
STAT.IDLE, CMD, the slot and the controller's turn (and leaves SIM-STUCK, where no command completes) and nothing
else, so that memory, latches and mailboxes are those of the state; the step then is the execution of that
instruction in that state, with the controller's turn taken off, or still there where SIM's completion comes first.
Under the default codes that form is the one the opcode table's word stands for. (Placing stands for the write of
CMD, log 23; the default codes are UNVERIFIED, log 9.) (30_encoding.md R97; 20_memory.md R69) -/
def Obligations.PlacedWordIsRunNext : Prop :=
  ∀ (s p : State) (w : Nat) (i : Instr), decode s.codes.params (.command (BitVec.ofNat 32 w)) = .instr i →
    p = s.withFetchWord 32 w →
    p = { s with
          mbe := true, idle := false, cmd := BitVec.ofNat 32 w, slot := .full (BitVec.ofNat 32 w) false,
          env := if s.env = .simStuck then .general else s.env, agenda := .controller :: s.agenda } ∧
    (simCompletes p = true → step p = exec i p) ∧
    (simCompletes p = false → step p = exec i { p with agenda := s.agenda }) ∧
    (s.codes = defaultCodes → decodeTableWord 32 w = some i)
end

