-- ==== Sys2Proof/Laws/Clock.lean ====
section
/-!
SUPPORT. Everything the Clock Divisor Selector answers, by the range its frequency lies in.
-/

namespace Sys2Proof.Machine

/-- The tier of each range of frequencies (`40_clock_divisor.md` R101). -/
theorem divsel_cases (f : BitVec 32) :
    (f.toNat ≤ 20000000 ∧ divsel f = some .div8) ∨
    (20000000 < f.toNat ∧ f.toNat ≤ 40000000 ∧ divsel f = some .div16) ∨
    (40000000 < f.toNat ∧ f.toNat ≤ 80000000 ∧ divsel f = some .div32) ∨
    (80000000 < f.toNat ∧ f.toNat ≤ 120000000 ∧ divsel f = some .div48) ∨
    (120000000 < f.toNat ∧ f.toNat ≤ 160000000 ∧ divsel f = some .div64) ∨
    (160000000 < f.toNat ∧ f.toNat ≤ 240000000 ∧ divsel f = some .div96) ∨
    (240000000 < f.toNat ∧ divsel f = none) := by
  have hb : tierBound .div8 = 20000000 ∧ tierBound .div16 = 40000000 ∧ tierBound .div32 = 80000000 ∧
      tierBound .div48 = 120000000 ∧ tierBound .div64 = 160000000 ∧ tierBound .div96 = 240000000 :=
    ⟨rfl, rfl, rfl, rfl, rfl, rfl⟩
  obtain ⟨b1, b2, b3, b4, b5, b6⟩ := hb
  simp only [divsel, b1, b2, b3, b4, b5, b6]
  split_ifs <;> simp only [reduceCtorEq, Option.some.injEq, and_false, false_or, or_false, and_true] <;> omega

end Sys2Proof.Machine
end

