-- ==== Sys2Proof/Laws/Codec.lean ====
section
/-!
SUPPORT. The fields of a command word: each reads back as it was placed, under any layout in which the fields lie apart, and
the shape of what the encoder and the decoder answer.
-/

namespace Sys2Proof

variable {n : Nat} (pos q len : Nat) (f : BitVec n) (w w' : Word)

theorem getLsbD_placeField (i : Nat) :
    (placeField pos f).getLsbD i = (decide (i < 32) && (decide (pos ≤ i) && f.getLsbD (i - pos))) := by
  simp only [placeField, BitVec.getLsbD_shiftLeft, BitVec.getLsbD_setWidth]
  by_cases h : i < 32
  · by_cases h' : pos ≤ i
    · have h1 : i - pos < 32 := by omega
      simp [h, h', h1]
    · simp [h, h']
  · simp [h]

theorem getLsbD_getField (i : Nat) :
    (getField pos len w).getLsbD i = (decide (i < len) && w.getLsbD (pos + i)) := by
  simp [getField, BitVec.getLsbD_extractLsb']

/-- Reading a field of an OR reads it of both sides. -/
@[simp] theorem getField_or : getField pos len (w ||| w') = getField pos len w ||| getField pos len w' := by
  apply BitVec.eq_of_getLsbD_eq
  intro i hi
  simp only [getLsbD_getField, hi, BitVec.getLsbD_or, decide_true, Bool.true_and]

/-- A placed field reads back. -/
theorem getField_placeField_self (h : pos + n ≤ 32) : getField pos n (placeField pos f) = f := by
  apply BitVec.eq_of_getLsbD_eq
  intro i hi
  have h32 : pos + i < 32 := by omega
  rw [getLsbD_getField, getLsbD_placeField]
  simp [hi, h32]

/-- A field that lies apart from the placed one reads as zero. -/
theorem getField_placeField_apart (h : pos + n ≤ q ∨ q + len ≤ pos) :
    getField q len (placeField pos f) = 0#len := by
  apply BitVec.eq_of_getLsbD_eq
  intro i hi
  rw [getLsbD_getField, getLsbD_placeField]
  by_cases hp : pos ≤ q + i
  · have : n ≤ q + i - pos := by omega
    simp [BitVec.getLsbD_of_ge f _ this]
  · simp [hp]

theorem getLsbD_setField (i : Nat) (h : pos + n ≤ 32) :
    (setField pos f w).getLsbD i =
      if pos ≤ i ∧ i < pos + n then f.getLsbD (i - pos) else w.getLsbD i := by
  simp only [setField, BitVec.getLsbD_or, BitVec.getLsbD_and, BitVec.getLsbD_not, getLsbD_placeField,
    BitVec.getLsbD_allOnes]
  by_cases h32 : i < 32
  · by_cases hp : pos ≤ i
    · by_cases hn : i < pos + n
      · have : i - pos < n := by omega
        simp [h32, hp, hn, this]
      · have hn' : n ≤ i - pos := by omega
        have : ¬ i - pos < n := by omega
        simp [h32, hp, hn, this, BitVec.getLsbD_of_ge f _ hn']
    · simp [h32, hp]
  · have : ¬ (pos ≤ i ∧ i < pos + n) := by omega
    have hw : w.getLsbD i = false := BitVec.getLsbD_of_ge w i (by omega)
    simp [this, h32, hw]

/-- The field just set reads as the value set. -/
theorem getField_setField_self (h : pos + n ≤ 32) : getField pos n (setField pos f w) = f := by
  apply BitVec.eq_of_getLsbD_eq
  intro i hi
  rw [getLsbD_getField, getLsbD_setField _ _ _ _ h]
  simp [hi]

/-- Setting a field leaves a field that lies apart from it as it was. -/
theorem getField_setField_apart (h : pos + n ≤ 32) (ha : pos + n ≤ q ∨ q + len ≤ pos) :
    getField q len (setField pos f w) = getField q len w := by
  apply BitVec.eq_of_getLsbD_eq
  intro i hi
  rw [getLsbD_getField, getLsbD_getField, getLsbD_setField _ _ _ _ h, if_neg (by omega)]

/-- The default layout is one in which the fields lie apart. -/
theorem defaultLayout_ok : defaultLayout.Ok := by decide

/-- The default codes meet the constraint of `00_scope.md` R8. -/
theorem defaultCodes_ok : defaultCodes.Ok :=
  ⟨by decide, by decide, by decide, defaultLayout_ok⟩

/-! The parameters of a machine are its codes and `TA_CODE`. -/

@[simp] theorem params_toCodes (c : Codes) : c.params.toCodes = c := rfl
@[simp] theorem params_taCode (c : Codes) : c.params.taCode = Config.taCode := rfl

section
variable (p : Params) (hl : p.layout.Ok) (sof opc : BitVec 2) (t r : Addr) (v : Half)
include hl

/-- Every field of a packed command word reads back. -/
theorem packCommand_fields :
    getField p.layout.sof 2 (packCommand p sof opc t r v) = sof ∧
    getField p.layout.op 2 (packCommand p sof opc t r v) = opc ∧
    getField p.layout.tgt 5 (packCommand p sof opc t r v) = t ∧
    getField p.layout.reg 5 (packCommand p sof opc t r v) = r ∧
    getField p.layout.ta 2 (packCommand p sof opc t r v) = p.taCode ∧
    getField p.layout.data 16 (packCommand p sof opc t r v) = v := by
  obtain ⟨hb, ha⟩ := hl
  simp only [Layout.fields, List.forall_mem_cons, List.pairwise_cons] at hb ha
  obtain ⟨b1, b2, b3, b4, b5, b6, -⟩ := hb
  obtain ⟨⟨a12, a13, a14, a15, a16, -⟩, ⟨a23, a24, a25, a26, -⟩, ⟨a34, a35, a36, -⟩, ⟨a45, a46, -⟩,
    ⟨a56, -⟩, -⟩ := ha
  refine ⟨?_, ?_, ?_, ?_, ?_, ?_⟩ <;> simp only [packCommand, getField_or]
  · rw [getField_placeField_self _ _ b1, getField_placeField_apart _ _ _ _ a12.symm,
      getField_placeField_apart _ _ _ _ a13.symm, getField_placeField_apart _ _ _ _ a14.symm,
      getField_placeField_apart _ _ _ _ a15.symm, getField_placeField_apart _ _ _ _ a16.symm]
    simp
  · rw [getField_placeField_self _ _ b2, getField_placeField_apart _ _ _ _ a12,
      getField_placeField_apart _ _ _ _ a23.symm, getField_placeField_apart _ _ _ _ a24.symm,
      getField_placeField_apart _ _ _ _ a25.symm, getField_placeField_apart _ _ _ _ a26.symm]
    simp
  · rw [getField_placeField_self _ _ b3, getField_placeField_apart _ _ _ _ a13,
      getField_placeField_apart _ _ _ _ a23, getField_placeField_apart _ _ _ _ a34.symm,
      getField_placeField_apart _ _ _ _ a35.symm, getField_placeField_apart _ _ _ _ a36.symm]
    simp
  · rw [getField_placeField_self _ _ b4, getField_placeField_apart _ _ _ _ a14,
      getField_placeField_apart _ _ _ _ a24, getField_placeField_apart _ _ _ _ a34,
      getField_placeField_apart _ _ _ _ a45.symm, getField_placeField_apart _ _ _ _ a46.symm]
    simp
  · rw [getField_placeField_self _ _ b5, getField_placeField_apart _ _ _ _ a15,
      getField_placeField_apart _ _ _ _ a25, getField_placeField_apart _ _ _ _ a35,
      getField_placeField_apart _ _ _ _ a45, getField_placeField_apart _ _ _ _ a56.symm]
    simp
  · rw [getField_placeField_self _ _ b6, getField_placeField_apart _ _ _ _ a16,
      getField_placeField_apart _ _ _ _ a26, getField_placeField_apart _ _ _ _ a36,
      getField_placeField_apart _ _ _ _ a46, getField_placeField_apart _ _ _ _ a56]
    simp

end

/-- The words ENCODE answers (`41_command_encoder.md` R111): it fails, or the word is a packed one of the protocol's start
field and the direction's operation code. -/
theorem encodeTransaction_cases (p : Params) (proto : BitVec 2) (op : Op) (t r : Addr) (v : Half) :
    (proto ≠ 0#2 ∧ proto ≠ 1#2 ∧ encodeTransaction p proto op t r v = none) ∨
    (proto = 0#2 ∧ op = .read ∧
      encodeTransaction p proto op t r v = some (packCommand p p.sofC22 p.opC22Read t r 0#16)) ∨
    (proto = 0#2 ∧ op = .write ∧
      encodeTransaction p proto op t r v = some (packCommand p p.sofC22 p.opC22Write t r v)) ∨
    (proto = 1#2 ∧ op = .read ∧
      encodeTransaction p proto op t r v = some (packCommand p p.sofC45 p.opC45Read t r 0#16)) ∨
    (proto = 1#2 ∧ op = .write ∧
      encodeTransaction p proto op t r v = some (packCommand p p.sofC45 p.opC45Write t r v)) := by
  by_cases h0 : proto = 0#2
  · subst h0; cases op <;> simp [encodeTransaction]
  · by_cases h1 : proto = 1#2
    · subst h1; cases op <;> simp [encodeTransaction]
    · exact .inl ⟨h0, h1, by simp [encodeTransaction, h0, h1]⟩

/-- A request decodes to one of the five operations or is rejected for its reserved code. -/
theorem decodeRequest_cases (q : Request) :
    (q.op = 0#3 ∧ decodeRequest q = .instr (.rd q.tgt q.reg)) ∨
    (q.op = 1#3 ∧ decodeRequest q = .instr (.wr q.tgt q.reg q.data)) ∨
    (q.op = 2#3 ∧ decodeRequest q = .instr .ben) ∨
    (q.op = 3#3 ∧ decodeRequest q = .instr .bdis) ∨
    (q.op = 4#3 ∧ decodeRequest q = .instr (.init q.freq q.proto)) ∨
    (4 < q.op.toNat ∧ decodeRequest q = .reject (.reservedOperation q.op)) := by
  have h : ∀ x : BitVec 3, x = 0#3 ∨ x = 1#3 ∨ x = 2#3 ∨ x = 3#3 ∨ x = 4#3 ∨
      (4 < x.toNat ∧ x ≠ 0#3 ∧ x ≠ 1#3 ∧ x ≠ 2#3 ∧ x ≠ 3#3 ∧ x ≠ 4#3) := by decide
  rcases h q.op with h | h | h | h | h | ⟨h, h0, h1, h2, h3, h4⟩
  · exact .inl ⟨h, by simp [decodeRequest, h]⟩
  · exact .inr (.inl ⟨h, by simp [decodeRequest, h]⟩)
  · exact .inr (.inr (.inl ⟨h, by simp [decodeRequest, h]⟩))
  · exact .inr (.inr (.inr (.inl ⟨h, by simp [decodeRequest, h]⟩)))
  · exact .inr (.inr (.inr (.inr (.inl ⟨h, by simp [decodeRequest, h]⟩))))
  · exact .inr (.inr (.inr (.inr (.inr ⟨h, by simp only [decodeRequest, h0, h1, h2, h3, h4, if_false]⟩))))

/-- A command word decodes to one of the four forms or is rejected. -/
theorem decodeCommand_cases (p : Params) (w : Word) :
    (∃ t r, decodeCommand p w = .instr (.c22Read t r)) ∨
    (∃ t r v, decodeCommand p w = .instr (.c22Write t r v)) ∨
    (∃ t r, decodeCommand p w = .instr (.c45Read t r)) ∨
    (∃ t r v, decodeCommand p w = .instr (.c45Write t r v)) ∨
    decodeCommand p w = .reject (.reservedCommand w) := by
  simp only [decodeCommand]
  split_ifs <;> simp

/-- A divisor code decodes to one of the six tiers or is rejected. -/
theorem decodeDivisor_cases (d : BitVec 3) :
    (d = 0#3 ∧ decodeDivisor d = .instr .div8) ∨ (d = 1#3 ∧ decodeDivisor d = .instr .div16) ∨
    (d = 2#3 ∧ decodeDivisor d = .instr .div32) ∨ (d = 3#3 ∧ decodeDivisor d = .instr .div48) ∨
    (d = 4#3 ∧ decodeDivisor d = .instr .div64) ∨ (d = 5#3 ∧ decodeDivisor d = .instr .div96) ∨
    (5 < d.toNat ∧ decodeDivisor d = .reject (.reservedDivisor d)) := by
  revert d; decide

end Sys2Proof
end

