-- ==== Sys2Proof/Laws/State.lean ====
section
/-!
SUPPORT. What each register update of `Machine/Ops.lean` does to each field of the state, one lemma a field.
-/

namespace Sys2Proof.Machine

variable (s : State)

/-! ### `setLife` -/

@[simp] theorem setLife_life (l : Life) : (setLife l s).life = l := rfl
@[simp] theorem setLife_proto (l : Life) : (setLife l s).proto = s.proto := rfl
@[simp] theorem setLife_guard (l : Life) : (setLife l s).guard = s.guard := rfl
@[simp] theorem setLife_owner (l : Life) : (setLife l s).owner = s.owner := rfl
@[simp] theorem setLife_fsm (l : Life) : (setLife l s).fsm = s.fsm := rfl
@[simp] theorem setLife_d (l : Life) : (setLife l s).d = s.d := rfl
@[simp] theorem setLife_polls (l : Life) : (setLife l s).polls = s.polls := rfl
@[simp] theorem setLife_rdata (l : Life) : (setLife l s).rdata = s.rdata := rfl
@[simp] theorem setLife_err (l : Life) : (setLife l s).err = s.err := rfl
@[simp] theorem setLife_pend (l : Life) : (setLife l s).pend = s.pend := rfl
@[simp] theorem setLife_resp (l : Life) : (setLife l s).resp = s.resp := rfl
@[simp] theorem setLife_mbe (l : Life) : (setLife l s).mbe = s.mbe := rfl
@[simp] theorem setLife_div (l : Life) : (setLife l s).div = s.div := rfl
@[simp] theorem setLife_idle (l : Life) : (setLife l s).idle = s.idle := rfl
@[simp] theorem setLife_cmd (l : Life) : (setLife l s).cmd = s.cmd := rfl
@[simp] theorem setLife_intEn (l : Life) : (setLife l s).intEn = s.intEn := rfl
@[simp] theorem setLife_intPend (l : Life) : (setLife l s).intPend = s.intPend := rfl
@[simp] theorem setLife_slot (l : Life) : (setLife l s).slot = s.slot := rfl
@[simp] theorem setLife_phy (l : Life) : (setLife l s).phy = s.phy := rfl
@[simp] theorem setLife_env (l : Life) : (setLife l s).env = s.env := rfl
@[simp] theorem setLife_codes (l : Life) : (setLife l s).codes = s.codes := rfl
@[simp] theorem setLife_pclk (l : Life) : (setLife l s).pclk = s.pclk := rfl
@[simp] theorem setLife_mdc (l : Life) : (setLife l s).mdc = s.mdc := rfl
@[simp] theorem setLife_agenda (l : Life) : (setLife l s).agenda = s.agenda := rfl
@[simp] theorem setLife_cur (l : Life) : (setLife l s).cur = s.cur := rfl
@[simp] theorem setLife_draws (l : Life) : (setLife l s).draws = s.draws := rfl

/-! ### `setProto` -/

@[simp] theorem setProto_life (p : BitVec 2) : (setProto p s).life = s.life := rfl
@[simp] theorem setProto_proto (p : BitVec 2) : (setProto p s).proto = p := rfl
@[simp] theorem setProto_guard (p : BitVec 2) : (setProto p s).guard = s.guard := rfl
@[simp] theorem setProto_owner (p : BitVec 2) : (setProto p s).owner = s.owner := rfl
@[simp] theorem setProto_fsm (p : BitVec 2) : (setProto p s).fsm = s.fsm := rfl
@[simp] theorem setProto_d (p : BitVec 2) : (setProto p s).d = s.d := rfl
@[simp] theorem setProto_polls (p : BitVec 2) : (setProto p s).polls = s.polls := rfl
@[simp] theorem setProto_rdata (p : BitVec 2) : (setProto p s).rdata = s.rdata := rfl
@[simp] theorem setProto_err (p : BitVec 2) : (setProto p s).err = s.err := rfl
@[simp] theorem setProto_pend (p : BitVec 2) : (setProto p s).pend = s.pend := rfl
@[simp] theorem setProto_resp (p : BitVec 2) : (setProto p s).resp = s.resp := rfl
@[simp] theorem setProto_mbe (p : BitVec 2) : (setProto p s).mbe = s.mbe := rfl
@[simp] theorem setProto_div (p : BitVec 2) : (setProto p s).div = s.div := rfl
@[simp] theorem setProto_idle (p : BitVec 2) : (setProto p s).idle = s.idle := rfl
@[simp] theorem setProto_cmd (p : BitVec 2) : (setProto p s).cmd = s.cmd := rfl
@[simp] theorem setProto_intEn (p : BitVec 2) : (setProto p s).intEn = s.intEn := rfl
@[simp] theorem setProto_intPend (p : BitVec 2) : (setProto p s).intPend = s.intPend := rfl
@[simp] theorem setProto_slot (p : BitVec 2) : (setProto p s).slot = s.slot := rfl
@[simp] theorem setProto_phy (p : BitVec 2) : (setProto p s).phy = s.phy := rfl
@[simp] theorem setProto_env (p : BitVec 2) : (setProto p s).env = s.env := rfl
@[simp] theorem setProto_codes (p : BitVec 2) : (setProto p s).codes = s.codes := rfl
@[simp] theorem setProto_pclk (p : BitVec 2) : (setProto p s).pclk = s.pclk := rfl
@[simp] theorem setProto_mdc (p : BitVec 2) : (setProto p s).mdc = s.mdc := rfl
@[simp] theorem setProto_agenda (p : BitVec 2) : (setProto p s).agenda = s.agenda := rfl
@[simp] theorem setProto_cur (p : BitVec 2) : (setProto p s).cur = s.cur := rfl
@[simp] theorem setProto_draws (p : BitVec 2) : (setProto p s).draws = s.draws := rfl

/-! ### `goto` -/

@[simp] theorem goto_life (f : Fsm) : (goto f s).life = s.life := rfl
@[simp] theorem goto_proto (f : Fsm) : (goto f s).proto = s.proto := rfl
@[simp] theorem goto_guard (f : Fsm) : (goto f s).guard = s.guard := rfl
@[simp] theorem goto_owner (f : Fsm) : (goto f s).owner = s.owner := rfl
@[simp] theorem goto_fsm (f : Fsm) : (goto f s).fsm = f := rfl
@[simp] theorem goto_d (f : Fsm) : (goto f s).d = s.d := rfl
@[simp] theorem goto_polls (f : Fsm) : (goto f s).polls = s.polls := rfl
@[simp] theorem goto_rdata (f : Fsm) : (goto f s).rdata = s.rdata := rfl
@[simp] theorem goto_err (f : Fsm) : (goto f s).err = s.err := rfl
@[simp] theorem goto_pend (f : Fsm) : (goto f s).pend = s.pend := rfl
@[simp] theorem goto_resp (f : Fsm) : (goto f s).resp = s.resp := rfl
@[simp] theorem goto_mbe (f : Fsm) : (goto f s).mbe = s.mbe := rfl
@[simp] theorem goto_div (f : Fsm) : (goto f s).div = s.div := rfl
@[simp] theorem goto_idle (f : Fsm) : (goto f s).idle = s.idle := rfl
@[simp] theorem goto_cmd (f : Fsm) : (goto f s).cmd = s.cmd := rfl
@[simp] theorem goto_intEn (f : Fsm) : (goto f s).intEn = s.intEn := rfl
@[simp] theorem goto_intPend (f : Fsm) : (goto f s).intPend = s.intPend := rfl
@[simp] theorem goto_slot (f : Fsm) : (goto f s).slot = s.slot := rfl
@[simp] theorem goto_phy (f : Fsm) : (goto f s).phy = s.phy := rfl
@[simp] theorem goto_env (f : Fsm) : (goto f s).env = s.env := rfl
@[simp] theorem goto_codes (f : Fsm) : (goto f s).codes = s.codes := rfl
@[simp] theorem goto_pclk (f : Fsm) : (goto f s).pclk = s.pclk := rfl
@[simp] theorem goto_mdc (f : Fsm) : (goto f s).mdc = s.mdc := rfl
@[simp] theorem goto_agenda (f : Fsm) : (goto f s).agenda = s.agenda := rfl
@[simp] theorem goto_cur (f : Fsm) : (goto f s).cur = s.cur := rfl
@[simp] theorem goto_draws (f : Fsm) : (goto f s).draws = s.draws := rfl

/-! ### `setErr` -/

@[simp] theorem setErr_life (e : Status) : (setErr e s).life = s.life := rfl
@[simp] theorem setErr_proto (e : Status) : (setErr e s).proto = s.proto := rfl
@[simp] theorem setErr_guard (e : Status) : (setErr e s).guard = s.guard := rfl
@[simp] theorem setErr_owner (e : Status) : (setErr e s).owner = s.owner := rfl
@[simp] theorem setErr_fsm (e : Status) : (setErr e s).fsm = s.fsm := rfl
@[simp] theorem setErr_d (e : Status) : (setErr e s).d = s.d := rfl
@[simp] theorem setErr_polls (e : Status) : (setErr e s).polls = s.polls := rfl
@[simp] theorem setErr_rdata (e : Status) : (setErr e s).rdata = s.rdata := rfl
@[simp] theorem setErr_err (e : Status) : (setErr e s).err = e := rfl
@[simp] theorem setErr_pend (e : Status) : (setErr e s).pend = s.pend := rfl
@[simp] theorem setErr_resp (e : Status) : (setErr e s).resp = s.resp := rfl
@[simp] theorem setErr_mbe (e : Status) : (setErr e s).mbe = s.mbe := rfl
@[simp] theorem setErr_div (e : Status) : (setErr e s).div = s.div := rfl
@[simp] theorem setErr_idle (e : Status) : (setErr e s).idle = s.idle := rfl
@[simp] theorem setErr_cmd (e : Status) : (setErr e s).cmd = s.cmd := rfl
@[simp] theorem setErr_intEn (e : Status) : (setErr e s).intEn = s.intEn := rfl
@[simp] theorem setErr_intPend (e : Status) : (setErr e s).intPend = s.intPend := rfl
@[simp] theorem setErr_slot (e : Status) : (setErr e s).slot = s.slot := rfl
@[simp] theorem setErr_phy (e : Status) : (setErr e s).phy = s.phy := rfl
@[simp] theorem setErr_env (e : Status) : (setErr e s).env = s.env := rfl
@[simp] theorem setErr_codes (e : Status) : (setErr e s).codes = s.codes := rfl
@[simp] theorem setErr_pclk (e : Status) : (setErr e s).pclk = s.pclk := rfl
@[simp] theorem setErr_mdc (e : Status) : (setErr e s).mdc = s.mdc := rfl
@[simp] theorem setErr_agenda (e : Status) : (setErr e s).agenda = s.agenda := rfl
@[simp] theorem setErr_cur (e : Status) : (setErr e s).cur = s.cur := rfl
@[simp] theorem setErr_draws (e : Status) : (setErr e s).draws = s.draws := rfl

/-! ### `setRdata` -/

@[simp] theorem setRdata_life (v : Half) : (setRdata v s).life = s.life := rfl
@[simp] theorem setRdata_proto (v : Half) : (setRdata v s).proto = s.proto := rfl
@[simp] theorem setRdata_guard (v : Half) : (setRdata v s).guard = s.guard := rfl
@[simp] theorem setRdata_owner (v : Half) : (setRdata v s).owner = s.owner := rfl
@[simp] theorem setRdata_fsm (v : Half) : (setRdata v s).fsm = s.fsm := rfl
@[simp] theorem setRdata_d (v : Half) : (setRdata v s).d = s.d := rfl
@[simp] theorem setRdata_polls (v : Half) : (setRdata v s).polls = s.polls := rfl
@[simp] theorem setRdata_rdata (v : Half) : (setRdata v s).rdata = v := rfl
@[simp] theorem setRdata_err (v : Half) : (setRdata v s).err = s.err := rfl
@[simp] theorem setRdata_pend (v : Half) : (setRdata v s).pend = s.pend := rfl
@[simp] theorem setRdata_resp (v : Half) : (setRdata v s).resp = s.resp := rfl
@[simp] theorem setRdata_mbe (v : Half) : (setRdata v s).mbe = s.mbe := rfl
@[simp] theorem setRdata_div (v : Half) : (setRdata v s).div = s.div := rfl
@[simp] theorem setRdata_idle (v : Half) : (setRdata v s).idle = s.idle := rfl
@[simp] theorem setRdata_cmd (v : Half) : (setRdata v s).cmd = s.cmd := rfl
@[simp] theorem setRdata_intEn (v : Half) : (setRdata v s).intEn = s.intEn := rfl
@[simp] theorem setRdata_intPend (v : Half) : (setRdata v s).intPend = s.intPend := rfl
@[simp] theorem setRdata_slot (v : Half) : (setRdata v s).slot = s.slot := rfl
@[simp] theorem setRdata_phy (v : Half) : (setRdata v s).phy = s.phy := rfl
@[simp] theorem setRdata_env (v : Half) : (setRdata v s).env = s.env := rfl
@[simp] theorem setRdata_codes (v : Half) : (setRdata v s).codes = s.codes := rfl
@[simp] theorem setRdata_pclk (v : Half) : (setRdata v s).pclk = s.pclk := rfl
@[simp] theorem setRdata_mdc (v : Half) : (setRdata v s).mdc = s.mdc := rfl
@[simp] theorem setRdata_agenda (v : Half) : (setRdata v s).agenda = s.agenda := rfl
@[simp] theorem setRdata_cur (v : Half) : (setRdata v s).cur = s.cur := rfl
@[simp] theorem setRdata_draws (v : Half) : (setRdata v s).draws = s.draws := rfl

/-! ### `countPoll` -/

@[simp] theorem countPoll_life : (countPoll s).life = s.life := rfl
@[simp] theorem countPoll_proto : (countPoll s).proto = s.proto := rfl
@[simp] theorem countPoll_guard : (countPoll s).guard = s.guard := rfl
@[simp] theorem countPoll_owner : (countPoll s).owner = s.owner := rfl
@[simp] theorem countPoll_fsm : (countPoll s).fsm = s.fsm := rfl
@[simp] theorem countPoll_d : (countPoll s).d = s.d := rfl
@[simp] theorem countPoll_polls : (countPoll s).polls = s.polls + 1 := rfl
@[simp] theorem countPoll_rdata : (countPoll s).rdata = s.rdata := rfl
@[simp] theorem countPoll_err : (countPoll s).err = s.err := rfl
@[simp] theorem countPoll_pend : (countPoll s).pend = s.pend := rfl
@[simp] theorem countPoll_resp : (countPoll s).resp = s.resp := rfl
@[simp] theorem countPoll_mbe : (countPoll s).mbe = s.mbe := rfl
@[simp] theorem countPoll_div : (countPoll s).div = s.div := rfl
@[simp] theorem countPoll_idle : (countPoll s).idle = s.idle := rfl
@[simp] theorem countPoll_cmd : (countPoll s).cmd = s.cmd := rfl
@[simp] theorem countPoll_intEn : (countPoll s).intEn = s.intEn := rfl
@[simp] theorem countPoll_intPend : (countPoll s).intPend = s.intPend := rfl
@[simp] theorem countPoll_slot : (countPoll s).slot = s.slot := rfl
@[simp] theorem countPoll_phy : (countPoll s).phy = s.phy := rfl
@[simp] theorem countPoll_env : (countPoll s).env = s.env := rfl
@[simp] theorem countPoll_codes : (countPoll s).codes = s.codes := rfl
@[simp] theorem countPoll_pclk : (countPoll s).pclk = s.pclk := rfl
@[simp] theorem countPoll_mdc : (countPoll s).mdc = s.mdc := rfl
@[simp] theorem countPoll_agenda : (countPoll s).agenda = s.agenda := rfl
@[simp] theorem countPoll_cur : (countPoll s).cur = s.cur := rfl
@[simp] theorem countPoll_draws : (countPoll s).draws = s.draws := rfl

/-! ### `setMbe` -/

@[simp] theorem setMbe_life (b : Bool) : (setMbe b s).life = s.life := rfl
@[simp] theorem setMbe_proto (b : Bool) : (setMbe b s).proto = s.proto := rfl
@[simp] theorem setMbe_guard (b : Bool) : (setMbe b s).guard = s.guard := rfl
@[simp] theorem setMbe_owner (b : Bool) : (setMbe b s).owner = s.owner := rfl
@[simp] theorem setMbe_fsm (b : Bool) : (setMbe b s).fsm = s.fsm := rfl
@[simp] theorem setMbe_d (b : Bool) : (setMbe b s).d = s.d := rfl
@[simp] theorem setMbe_polls (b : Bool) : (setMbe b s).polls = s.polls := rfl
@[simp] theorem setMbe_rdata (b : Bool) : (setMbe b s).rdata = s.rdata := rfl
@[simp] theorem setMbe_err (b : Bool) : (setMbe b s).err = s.err := rfl
@[simp] theorem setMbe_pend (b : Bool) : (setMbe b s).pend = s.pend := rfl
@[simp] theorem setMbe_resp (b : Bool) : (setMbe b s).resp = s.resp := rfl
@[simp] theorem setMbe_mbe (b : Bool) : (setMbe b s).mbe = b := rfl
@[simp] theorem setMbe_div (b : Bool) : (setMbe b s).div = s.div := rfl
@[simp] theorem setMbe_idle (b : Bool) : (setMbe b s).idle = s.idle := rfl
@[simp] theorem setMbe_cmd (b : Bool) : (setMbe b s).cmd = s.cmd := rfl
@[simp] theorem setMbe_intEn (b : Bool) : (setMbe b s).intEn = s.intEn := rfl
@[simp] theorem setMbe_intPend (b : Bool) : (setMbe b s).intPend = s.intPend := rfl
@[simp] theorem setMbe_slot (b : Bool) : (setMbe b s).slot = s.slot := rfl
@[simp] theorem setMbe_phy (b : Bool) : (setMbe b s).phy = s.phy := rfl
@[simp] theorem setMbe_env (b : Bool) : (setMbe b s).env = s.env := rfl
@[simp] theorem setMbe_codes (b : Bool) : (setMbe b s).codes = s.codes := rfl
@[simp] theorem setMbe_pclk (b : Bool) : (setMbe b s).pclk = s.pclk := rfl
@[simp] theorem setMbe_mdc (b : Bool) : (setMbe b s).mdc = s.mdc := rfl
@[simp] theorem setMbe_agenda (b : Bool) : (setMbe b s).agenda = s.agenda := rfl
@[simp] theorem setMbe_cur (b : Bool) : (setMbe b s).cur = s.cur := rfl
@[simp] theorem setMbe_draws (b : Bool) : (setMbe b s).draws = s.draws := rfl

/-! ### `clearInterrupts` -/

@[simp] theorem clearInterrupts_life : (clearInterrupts s).life = s.life := rfl
@[simp] theorem clearInterrupts_proto : (clearInterrupts s).proto = s.proto := rfl
@[simp] theorem clearInterrupts_guard : (clearInterrupts s).guard = s.guard := rfl
@[simp] theorem clearInterrupts_owner : (clearInterrupts s).owner = s.owner := rfl
@[simp] theorem clearInterrupts_fsm : (clearInterrupts s).fsm = s.fsm := rfl
@[simp] theorem clearInterrupts_d : (clearInterrupts s).d = s.d := rfl
@[simp] theorem clearInterrupts_polls : (clearInterrupts s).polls = s.polls := rfl
@[simp] theorem clearInterrupts_rdata : (clearInterrupts s).rdata = s.rdata := rfl
@[simp] theorem clearInterrupts_err : (clearInterrupts s).err = s.err := rfl
@[simp] theorem clearInterrupts_pend : (clearInterrupts s).pend = s.pend := rfl
@[simp] theorem clearInterrupts_resp : (clearInterrupts s).resp = s.resp := rfl
@[simp] theorem clearInterrupts_mbe : (clearInterrupts s).mbe = s.mbe := rfl
@[simp] theorem clearInterrupts_div : (clearInterrupts s).div = s.div := rfl
@[simp] theorem clearInterrupts_idle : (clearInterrupts s).idle = s.idle := rfl
@[simp] theorem clearInterrupts_cmd : (clearInterrupts s).cmd = s.cmd := rfl
@[simp] theorem clearInterrupts_intEn : (clearInterrupts s).intEn = 0#32 := rfl
@[simp] theorem clearInterrupts_intPend : (clearInterrupts s).intPend = 0#32 := rfl
@[simp] theorem clearInterrupts_slot : (clearInterrupts s).slot = s.slot := rfl
@[simp] theorem clearInterrupts_phy : (clearInterrupts s).phy = s.phy := rfl
@[simp] theorem clearInterrupts_env : (clearInterrupts s).env = s.env := rfl
@[simp] theorem clearInterrupts_codes : (clearInterrupts s).codes = s.codes := rfl
@[simp] theorem clearInterrupts_pclk : (clearInterrupts s).pclk = s.pclk := rfl
@[simp] theorem clearInterrupts_mdc : (clearInterrupts s).mdc = s.mdc := rfl
@[simp] theorem clearInterrupts_agenda : (clearInterrupts s).agenda = s.agenda := rfl
@[simp] theorem clearInterrupts_cur : (clearInterrupts s).cur = s.cur := rfl
@[simp] theorem clearInterrupts_draws : (clearInterrupts s).draws = s.draws := rfl

/-! ### `raiseInterrupts` -/

@[simp] theorem raiseInterrupts_life (n : Word) : (raiseInterrupts n s).life = s.life := rfl
@[simp] theorem raiseInterrupts_proto (n : Word) : (raiseInterrupts n s).proto = s.proto := rfl
@[simp] theorem raiseInterrupts_guard (n : Word) : (raiseInterrupts n s).guard = s.guard := rfl
@[simp] theorem raiseInterrupts_owner (n : Word) : (raiseInterrupts n s).owner = s.owner := rfl
@[simp] theorem raiseInterrupts_fsm (n : Word) : (raiseInterrupts n s).fsm = s.fsm := rfl
@[simp] theorem raiseInterrupts_d (n : Word) : (raiseInterrupts n s).d = s.d := rfl
@[simp] theorem raiseInterrupts_polls (n : Word) : (raiseInterrupts n s).polls = s.polls := rfl
@[simp] theorem raiseInterrupts_rdata (n : Word) : (raiseInterrupts n s).rdata = s.rdata := rfl
@[simp] theorem raiseInterrupts_err (n : Word) : (raiseInterrupts n s).err = s.err := rfl
@[simp] theorem raiseInterrupts_pend (n : Word) : (raiseInterrupts n s).pend = s.pend := rfl
@[simp] theorem raiseInterrupts_resp (n : Word) : (raiseInterrupts n s).resp = s.resp := rfl
@[simp] theorem raiseInterrupts_mbe (n : Word) : (raiseInterrupts n s).mbe = s.mbe := rfl
@[simp] theorem raiseInterrupts_div (n : Word) : (raiseInterrupts n s).div = s.div := rfl
@[simp] theorem raiseInterrupts_idle (n : Word) : (raiseInterrupts n s).idle = s.idle := rfl
@[simp] theorem raiseInterrupts_cmd (n : Word) : (raiseInterrupts n s).cmd = s.cmd := rfl
@[simp] theorem raiseInterrupts_intEn (n : Word) : (raiseInterrupts n s).intEn = s.intEn := rfl
@[simp] theorem raiseInterrupts_intPend (n : Word) : (raiseInterrupts n s).intPend = s.intPend ||| (n &&& sourceMask) := rfl
@[simp] theorem raiseInterrupts_slot (n : Word) : (raiseInterrupts n s).slot = s.slot := rfl
@[simp] theorem raiseInterrupts_phy (n : Word) : (raiseInterrupts n s).phy = s.phy := rfl
@[simp] theorem raiseInterrupts_env (n : Word) : (raiseInterrupts n s).env = s.env := rfl
@[simp] theorem raiseInterrupts_codes (n : Word) : (raiseInterrupts n s).codes = s.codes := rfl
@[simp] theorem raiseInterrupts_pclk (n : Word) : (raiseInterrupts n s).pclk = s.pclk := rfl
@[simp] theorem raiseInterrupts_mdc (n : Word) : (raiseInterrupts n s).mdc = s.mdc := rfl
@[simp] theorem raiseInterrupts_agenda (n : Word) : (raiseInterrupts n s).agenda = s.agenda := rfl
@[simp] theorem raiseInterrupts_cur (n : Word) : (raiseInterrupts n s).cur = s.cur := rfl
@[simp] theorem raiseInterrupts_draws (n : Word) : (raiseInterrupts n s).draws = s.draws := rfl

/-! ### `setSlot` -/

@[simp] theorem setSlot_life (x : Slot) : (setSlot x s).life = s.life := rfl
@[simp] theorem setSlot_proto (x : Slot) : (setSlot x s).proto = s.proto := rfl
@[simp] theorem setSlot_guard (x : Slot) : (setSlot x s).guard = s.guard := rfl
@[simp] theorem setSlot_owner (x : Slot) : (setSlot x s).owner = s.owner := rfl
@[simp] theorem setSlot_fsm (x : Slot) : (setSlot x s).fsm = s.fsm := rfl
@[simp] theorem setSlot_d (x : Slot) : (setSlot x s).d = s.d := rfl
@[simp] theorem setSlot_polls (x : Slot) : (setSlot x s).polls = s.polls := rfl
@[simp] theorem setSlot_rdata (x : Slot) : (setSlot x s).rdata = s.rdata := rfl
@[simp] theorem setSlot_err (x : Slot) : (setSlot x s).err = s.err := rfl
@[simp] theorem setSlot_pend (x : Slot) : (setSlot x s).pend = s.pend := rfl
@[simp] theorem setSlot_resp (x : Slot) : (setSlot x s).resp = s.resp := rfl
@[simp] theorem setSlot_mbe (x : Slot) : (setSlot x s).mbe = s.mbe := rfl
@[simp] theorem setSlot_div (x : Slot) : (setSlot x s).div = s.div := rfl
@[simp] theorem setSlot_idle (x : Slot) : (setSlot x s).idle = s.idle := rfl
@[simp] theorem setSlot_cmd (x : Slot) : (setSlot x s).cmd = s.cmd := rfl
@[simp] theorem setSlot_intEn (x : Slot) : (setSlot x s).intEn = s.intEn := rfl
@[simp] theorem setSlot_intPend (x : Slot) : (setSlot x s).intPend = s.intPend := rfl
@[simp] theorem setSlot_slot (x : Slot) : (setSlot x s).slot = x := rfl
@[simp] theorem setSlot_phy (x : Slot) : (setSlot x s).phy = s.phy := rfl
@[simp] theorem setSlot_env (x : Slot) : (setSlot x s).env = s.env := rfl
@[simp] theorem setSlot_codes (x : Slot) : (setSlot x s).codes = s.codes := rfl
@[simp] theorem setSlot_pclk (x : Slot) : (setSlot x s).pclk = s.pclk := rfl
@[simp] theorem setSlot_mdc (x : Slot) : (setSlot x s).mdc = s.mdc := rfl
@[simp] theorem setSlot_agenda (x : Slot) : (setSlot x s).agenda = s.agenda := rfl
@[simp] theorem setSlot_cur (x : Slot) : (setSlot x s).cur = s.cur := rfl
@[simp] theorem setSlot_draws (x : Slot) : (setSlot x s).draws = s.draws := rfl

/-! ### `setIdle` -/

@[simp] theorem setIdle_life (b : Bool) : (setIdle b s).life = s.life := rfl
@[simp] theorem setIdle_proto (b : Bool) : (setIdle b s).proto = s.proto := rfl
@[simp] theorem setIdle_guard (b : Bool) : (setIdle b s).guard = s.guard := rfl
@[simp] theorem setIdle_owner (b : Bool) : (setIdle b s).owner = s.owner := rfl
@[simp] theorem setIdle_fsm (b : Bool) : (setIdle b s).fsm = s.fsm := rfl
@[simp] theorem setIdle_d (b : Bool) : (setIdle b s).d = s.d := rfl
@[simp] theorem setIdle_polls (b : Bool) : (setIdle b s).polls = s.polls := rfl
@[simp] theorem setIdle_rdata (b : Bool) : (setIdle b s).rdata = s.rdata := rfl
@[simp] theorem setIdle_err (b : Bool) : (setIdle b s).err = s.err := rfl
@[simp] theorem setIdle_pend (b : Bool) : (setIdle b s).pend = s.pend := rfl
@[simp] theorem setIdle_resp (b : Bool) : (setIdle b s).resp = s.resp := rfl
@[simp] theorem setIdle_mbe (b : Bool) : (setIdle b s).mbe = s.mbe := rfl
@[simp] theorem setIdle_div (b : Bool) : (setIdle b s).div = s.div := rfl
@[simp] theorem setIdle_idle (b : Bool) : (setIdle b s).idle = b := rfl
@[simp] theorem setIdle_cmd (b : Bool) : (setIdle b s).cmd = s.cmd := rfl
@[simp] theorem setIdle_intEn (b : Bool) : (setIdle b s).intEn = s.intEn := rfl
@[simp] theorem setIdle_intPend (b : Bool) : (setIdle b s).intPend = s.intPend := rfl
@[simp] theorem setIdle_slot (b : Bool) : (setIdle b s).slot = s.slot := rfl
@[simp] theorem setIdle_phy (b : Bool) : (setIdle b s).phy = s.phy := rfl
@[simp] theorem setIdle_env (b : Bool) : (setIdle b s).env = s.env := rfl
@[simp] theorem setIdle_codes (b : Bool) : (setIdle b s).codes = s.codes := rfl
@[simp] theorem setIdle_pclk (b : Bool) : (setIdle b s).pclk = s.pclk := rfl
@[simp] theorem setIdle_mdc (b : Bool) : (setIdle b s).mdc = s.mdc := rfl
@[simp] theorem setIdle_agenda (b : Bool) : (setIdle b s).agenda = s.agenda := rfl
@[simp] theorem setIdle_cur (b : Bool) : (setIdle b s).cur = s.cur := rfl
@[simp] theorem setIdle_draws (b : Bool) : (setIdle b s).draws = s.draws := rfl

/-! ### `setCmd` -/

@[simp] theorem setCmd_life (w : Word) : (setCmd w s).life = s.life := rfl
@[simp] theorem setCmd_proto (w : Word) : (setCmd w s).proto = s.proto := rfl
@[simp] theorem setCmd_guard (w : Word) : (setCmd w s).guard = s.guard := rfl
@[simp] theorem setCmd_owner (w : Word) : (setCmd w s).owner = s.owner := rfl
@[simp] theorem setCmd_fsm (w : Word) : (setCmd w s).fsm = s.fsm := rfl
@[simp] theorem setCmd_d (w : Word) : (setCmd w s).d = s.d := rfl
@[simp] theorem setCmd_polls (w : Word) : (setCmd w s).polls = s.polls := rfl
@[simp] theorem setCmd_rdata (w : Word) : (setCmd w s).rdata = s.rdata := rfl
@[simp] theorem setCmd_err (w : Word) : (setCmd w s).err = s.err := rfl
@[simp] theorem setCmd_pend (w : Word) : (setCmd w s).pend = s.pend := rfl
@[simp] theorem setCmd_resp (w : Word) : (setCmd w s).resp = s.resp := rfl
@[simp] theorem setCmd_mbe (w : Word) : (setCmd w s).mbe = s.mbe := rfl
@[simp] theorem setCmd_div (w : Word) : (setCmd w s).div = s.div := rfl
@[simp] theorem setCmd_idle (w : Word) : (setCmd w s).idle = s.idle := rfl
@[simp] theorem setCmd_cmd (w : Word) : (setCmd w s).cmd = w := rfl
@[simp] theorem setCmd_intEn (w : Word) : (setCmd w s).intEn = s.intEn := rfl
@[simp] theorem setCmd_intPend (w : Word) : (setCmd w s).intPend = s.intPend := rfl
@[simp] theorem setCmd_slot (w : Word) : (setCmd w s).slot = s.slot := rfl
@[simp] theorem setCmd_phy (w : Word) : (setCmd w s).phy = s.phy := rfl
@[simp] theorem setCmd_env (w : Word) : (setCmd w s).env = s.env := rfl
@[simp] theorem setCmd_codes (w : Word) : (setCmd w s).codes = s.codes := rfl
@[simp] theorem setCmd_pclk (w : Word) : (setCmd w s).pclk = s.pclk := rfl
@[simp] theorem setCmd_mdc (w : Word) : (setCmd w s).mdc = s.mdc := rfl
@[simp] theorem setCmd_agenda (w : Word) : (setCmd w s).agenda = s.agenda := rfl
@[simp] theorem setCmd_cur (w : Word) : (setCmd w s).cur = s.cur := rfl
@[simp] theorem setCmd_draws (w : Word) : (setCmd w s).draws = s.draws := rfl

/-! ### `setClock` -/

@[simp] theorem setClock_life (c : BitVec 3) (n : Nat) : (setClock c n s).life = s.life := rfl
@[simp] theorem setClock_proto (c : BitVec 3) (n : Nat) : (setClock c n s).proto = s.proto := rfl
@[simp] theorem setClock_guard (c : BitVec 3) (n : Nat) : (setClock c n s).guard = s.guard := rfl
@[simp] theorem setClock_owner (c : BitVec 3) (n : Nat) : (setClock c n s).owner = s.owner := rfl
@[simp] theorem setClock_fsm (c : BitVec 3) (n : Nat) : (setClock c n s).fsm = s.fsm := rfl
@[simp] theorem setClock_d (c : BitVec 3) (n : Nat) : (setClock c n s).d = s.d := rfl
@[simp] theorem setClock_polls (c : BitVec 3) (n : Nat) : (setClock c n s).polls = s.polls := rfl
@[simp] theorem setClock_rdata (c : BitVec 3) (n : Nat) : (setClock c n s).rdata = s.rdata := rfl
@[simp] theorem setClock_err (c : BitVec 3) (n : Nat) : (setClock c n s).err = s.err := rfl
@[simp] theorem setClock_pend (c : BitVec 3) (n : Nat) : (setClock c n s).pend = s.pend := rfl
@[simp] theorem setClock_resp (c : BitVec 3) (n : Nat) : (setClock c n s).resp = s.resp := rfl
@[simp] theorem setClock_mbe (c : BitVec 3) (n : Nat) : (setClock c n s).mbe = s.mbe := rfl
@[simp] theorem setClock_div (c : BitVec 3) (n : Nat) : (setClock c n s).div = c := rfl
@[simp] theorem setClock_idle (c : BitVec 3) (n : Nat) : (setClock c n s).idle = s.idle := rfl
@[simp] theorem setClock_cmd (c : BitVec 3) (n : Nat) : (setClock c n s).cmd = s.cmd := rfl
@[simp] theorem setClock_intEn (c : BitVec 3) (n : Nat) : (setClock c n s).intEn = s.intEn := rfl
@[simp] theorem setClock_intPend (c : BitVec 3) (n : Nat) : (setClock c n s).intPend = s.intPend := rfl
@[simp] theorem setClock_slot (c : BitVec 3) (n : Nat) : (setClock c n s).slot = s.slot := rfl
@[simp] theorem setClock_phy (c : BitVec 3) (n : Nat) : (setClock c n s).phy = s.phy := rfl
@[simp] theorem setClock_env (c : BitVec 3) (n : Nat) : (setClock c n s).env = s.env := rfl
@[simp] theorem setClock_codes (c : BitVec 3) (n : Nat) : (setClock c n s).codes = s.codes := rfl
@[simp] theorem setClock_pclk (c : BitVec 3) (n : Nat) : (setClock c n s).pclk = s.pclk := rfl
@[simp] theorem setClock_mdc (c : BitVec 3) (n : Nat) : (setClock c n s).mdc = n := rfl
@[simp] theorem setClock_agenda (c : BitVec 3) (n : Nat) : (setClock c n s).agenda = s.agenda := rfl
@[simp] theorem setClock_cur (c : BitVec 3) (n : Nat) : (setClock c n s).cur = s.cur := rfl
@[simp] theorem setClock_draws (c : BitVec 3) (n : Nat) : (setClock c n s).draws = s.draws := rfl

/-! ### `setPhy` -/

@[simp] theorem setPhy_life (m : Memory) : (setPhy m s).life = s.life := rfl
@[simp] theorem setPhy_proto (m : Memory) : (setPhy m s).proto = s.proto := rfl
@[simp] theorem setPhy_guard (m : Memory) : (setPhy m s).guard = s.guard := rfl
@[simp] theorem setPhy_owner (m : Memory) : (setPhy m s).owner = s.owner := rfl
@[simp] theorem setPhy_fsm (m : Memory) : (setPhy m s).fsm = s.fsm := rfl
@[simp] theorem setPhy_d (m : Memory) : (setPhy m s).d = s.d := rfl
@[simp] theorem setPhy_polls (m : Memory) : (setPhy m s).polls = s.polls := rfl
@[simp] theorem setPhy_rdata (m : Memory) : (setPhy m s).rdata = s.rdata := rfl
@[simp] theorem setPhy_err (m : Memory) : (setPhy m s).err = s.err := rfl
@[simp] theorem setPhy_pend (m : Memory) : (setPhy m s).pend = s.pend := rfl
@[simp] theorem setPhy_resp (m : Memory) : (setPhy m s).resp = s.resp := rfl
@[simp] theorem setPhy_mbe (m : Memory) : (setPhy m s).mbe = s.mbe := rfl
@[simp] theorem setPhy_div (m : Memory) : (setPhy m s).div = s.div := rfl
@[simp] theorem setPhy_idle (m : Memory) : (setPhy m s).idle = s.idle := rfl
@[simp] theorem setPhy_cmd (m : Memory) : (setPhy m s).cmd = s.cmd := rfl
@[simp] theorem setPhy_intEn (m : Memory) : (setPhy m s).intEn = s.intEn := rfl
@[simp] theorem setPhy_intPend (m : Memory) : (setPhy m s).intPend = s.intPend := rfl
@[simp] theorem setPhy_slot (m : Memory) : (setPhy m s).slot = s.slot := rfl
@[simp] theorem setPhy_phy (m : Memory) : (setPhy m s).phy = m := rfl
@[simp] theorem setPhy_env (m : Memory) : (setPhy m s).env = s.env := rfl
@[simp] theorem setPhy_codes (m : Memory) : (setPhy m s).codes = s.codes := rfl
@[simp] theorem setPhy_pclk (m : Memory) : (setPhy m s).pclk = s.pclk := rfl
@[simp] theorem setPhy_mdc (m : Memory) : (setPhy m s).mdc = s.mdc := rfl
@[simp] theorem setPhy_agenda (m : Memory) : (setPhy m s).agenda = s.agenda := rfl
@[simp] theorem setPhy_cur (m : Memory) : (setPhy m s).cur = s.cur := rfl
@[simp] theorem setPhy_draws (m : Memory) : (setPhy m s).draws = s.draws := rfl

/-! ### `countDraw` -/

@[simp] theorem countDraw_life : (countDraw s).life = s.life := rfl
@[simp] theorem countDraw_proto : (countDraw s).proto = s.proto := rfl
@[simp] theorem countDraw_guard : (countDraw s).guard = s.guard := rfl
@[simp] theorem countDraw_owner : (countDraw s).owner = s.owner := rfl
@[simp] theorem countDraw_fsm : (countDraw s).fsm = s.fsm := rfl
@[simp] theorem countDraw_d : (countDraw s).d = s.d := rfl
@[simp] theorem countDraw_polls : (countDraw s).polls = s.polls := rfl
@[simp] theorem countDraw_rdata : (countDraw s).rdata = s.rdata := rfl
@[simp] theorem countDraw_err : (countDraw s).err = s.err := rfl
@[simp] theorem countDraw_pend : (countDraw s).pend = s.pend := rfl
@[simp] theorem countDraw_resp : (countDraw s).resp = s.resp := rfl
@[simp] theorem countDraw_mbe : (countDraw s).mbe = s.mbe := rfl
@[simp] theorem countDraw_div : (countDraw s).div = s.div := rfl
@[simp] theorem countDraw_idle : (countDraw s).idle = s.idle := rfl
@[simp] theorem countDraw_cmd : (countDraw s).cmd = s.cmd := rfl
@[simp] theorem countDraw_intEn : (countDraw s).intEn = s.intEn := rfl
@[simp] theorem countDraw_intPend : (countDraw s).intPend = s.intPend := rfl
@[simp] theorem countDraw_slot : (countDraw s).slot = s.slot := rfl
@[simp] theorem countDraw_phy : (countDraw s).phy = s.phy := rfl
@[simp] theorem countDraw_env : (countDraw s).env = s.env := rfl
@[simp] theorem countDraw_codes : (countDraw s).codes = s.codes := rfl
@[simp] theorem countDraw_pclk : (countDraw s).pclk = s.pclk := rfl
@[simp] theorem countDraw_mdc : (countDraw s).mdc = s.mdc := rfl
@[simp] theorem countDraw_agenda : (countDraw s).agenda = s.agenda := rfl
@[simp] theorem countDraw_cur : (countDraw s).cur = s.cur := rfl
@[simp] theorem countDraw_draws : (countDraw s).draws = s.draws + 1 := rfl

/-! ### `setAgenda` -/

@[simp] theorem setAgenda_life (l : List Turn) : (setAgenda l s).life = s.life := rfl
@[simp] theorem setAgenda_proto (l : List Turn) : (setAgenda l s).proto = s.proto := rfl
@[simp] theorem setAgenda_guard (l : List Turn) : (setAgenda l s).guard = s.guard := rfl
@[simp] theorem setAgenda_owner (l : List Turn) : (setAgenda l s).owner = s.owner := rfl
@[simp] theorem setAgenda_fsm (l : List Turn) : (setAgenda l s).fsm = s.fsm := rfl
@[simp] theorem setAgenda_d (l : List Turn) : (setAgenda l s).d = s.d := rfl
@[simp] theorem setAgenda_polls (l : List Turn) : (setAgenda l s).polls = s.polls := rfl
@[simp] theorem setAgenda_rdata (l : List Turn) : (setAgenda l s).rdata = s.rdata := rfl
@[simp] theorem setAgenda_err (l : List Turn) : (setAgenda l s).err = s.err := rfl
@[simp] theorem setAgenda_pend (l : List Turn) : (setAgenda l s).pend = s.pend := rfl
@[simp] theorem setAgenda_resp (l : List Turn) : (setAgenda l s).resp = s.resp := rfl
@[simp] theorem setAgenda_mbe (l : List Turn) : (setAgenda l s).mbe = s.mbe := rfl
@[simp] theorem setAgenda_div (l : List Turn) : (setAgenda l s).div = s.div := rfl
@[simp] theorem setAgenda_idle (l : List Turn) : (setAgenda l s).idle = s.idle := rfl
@[simp] theorem setAgenda_cmd (l : List Turn) : (setAgenda l s).cmd = s.cmd := rfl
@[simp] theorem setAgenda_intEn (l : List Turn) : (setAgenda l s).intEn = s.intEn := rfl
@[simp] theorem setAgenda_intPend (l : List Turn) : (setAgenda l s).intPend = s.intPend := rfl
@[simp] theorem setAgenda_slot (l : List Turn) : (setAgenda l s).slot = s.slot := rfl
@[simp] theorem setAgenda_phy (l : List Turn) : (setAgenda l s).phy = s.phy := rfl
@[simp] theorem setAgenda_env (l : List Turn) : (setAgenda l s).env = s.env := rfl
@[simp] theorem setAgenda_codes (l : List Turn) : (setAgenda l s).codes = s.codes := rfl
@[simp] theorem setAgenda_pclk (l : List Turn) : (setAgenda l s).pclk = s.pclk := rfl
@[simp] theorem setAgenda_mdc (l : List Turn) : (setAgenda l s).mdc = s.mdc := rfl
@[simp] theorem setAgenda_agenda (l : List Turn) : (setAgenda l s).agenda = l := rfl
@[simp] theorem setAgenda_cur (l : List Turn) : (setAgenda l s).cur = s.cur := rfl
@[simp] theorem setAgenda_draws (l : List Turn) : (setAgenda l s).draws = s.draws := rfl

/-! ### `serving` -/

@[simp] theorem serving_life (q : Nat) : (serving q s).life = s.life := rfl
@[simp] theorem serving_proto (q : Nat) : (serving q s).proto = s.proto := rfl
@[simp] theorem serving_guard (q : Nat) : (serving q s).guard = s.guard := rfl
@[simp] theorem serving_owner (q : Nat) : (serving q s).owner = s.owner := rfl
@[simp] theorem serving_fsm (q : Nat) : (serving q s).fsm = s.fsm := rfl
@[simp] theorem serving_d (q : Nat) : (serving q s).d = s.d := rfl
@[simp] theorem serving_polls (q : Nat) : (serving q s).polls = s.polls := rfl
@[simp] theorem serving_rdata (q : Nat) : (serving q s).rdata = s.rdata := rfl
@[simp] theorem serving_err (q : Nat) : (serving q s).err = s.err := rfl
@[simp] theorem serving_pend (q : Nat) : (serving q s).pend = s.pend := rfl
@[simp] theorem serving_resp (q : Nat) : (serving q s).resp = s.resp := rfl
@[simp] theorem serving_mbe (q : Nat) : (serving q s).mbe = s.mbe := rfl
@[simp] theorem serving_div (q : Nat) : (serving q s).div = s.div := rfl
@[simp] theorem serving_idle (q : Nat) : (serving q s).idle = s.idle := rfl
@[simp] theorem serving_cmd (q : Nat) : (serving q s).cmd = s.cmd := rfl
@[simp] theorem serving_intEn (q : Nat) : (serving q s).intEn = s.intEn := rfl
@[simp] theorem serving_intPend (q : Nat) : (serving q s).intPend = s.intPend := rfl
@[simp] theorem serving_slot (q : Nat) : (serving q s).slot = s.slot := rfl
@[simp] theorem serving_phy (q : Nat) : (serving q s).phy = s.phy := rfl
@[simp] theorem serving_env (q : Nat) : (serving q s).env = s.env := rfl
@[simp] theorem serving_codes (q : Nat) : (serving q s).codes = s.codes := rfl
@[simp] theorem serving_pclk (q : Nat) : (serving q s).pclk = s.pclk := rfl
@[simp] theorem serving_mdc (q : Nat) : (serving q s).mdc = s.mdc := rfl
@[simp] theorem serving_agenda (q : Nat) : (serving q s).agenda = s.agenda := rfl
@[simp] theorem serving_cur (q : Nat) : (serving q s).cur = q := rfl
@[simp] theorem serving_draws (q : Nat) : (serving q s).draws = s.draws := rfl

/-! ### `post` -/

@[simp] theorem post_life (q : Nat) (r : Request) : (post q r s).life = s.life := rfl
@[simp] theorem post_proto (q : Nat) (r : Request) : (post q r s).proto = s.proto := rfl
@[simp] theorem post_guard (q : Nat) (r : Request) : (post q r s).guard = s.guard := rfl
@[simp] theorem post_owner (q : Nat) (r : Request) : (post q r s).owner = s.owner := rfl
@[simp] theorem post_fsm (q : Nat) (r : Request) : (post q r s).fsm = s.fsm := rfl
@[simp] theorem post_d (q : Nat) (r : Request) : (post q r s).d = s.d := rfl
@[simp] theorem post_polls (q : Nat) (r : Request) : (post q r s).polls = s.polls := rfl
@[simp] theorem post_rdata (q : Nat) (r : Request) : (post q r s).rdata = s.rdata := rfl
@[simp] theorem post_err (q : Nat) (r : Request) : (post q r s).err = s.err := rfl
@[simp] theorem post_pend (q : Nat) (r : Request) : (post q r s).pend = tablePut s.pend q r := rfl
@[simp] theorem post_resp (q : Nat) (r : Request) : (post q r s).resp = s.resp := rfl
@[simp] theorem post_mbe (q : Nat) (r : Request) : (post q r s).mbe = s.mbe := rfl
@[simp] theorem post_div (q : Nat) (r : Request) : (post q r s).div = s.div := rfl
@[simp] theorem post_idle (q : Nat) (r : Request) : (post q r s).idle = s.idle := rfl
@[simp] theorem post_cmd (q : Nat) (r : Request) : (post q r s).cmd = s.cmd := rfl
@[simp] theorem post_intEn (q : Nat) (r : Request) : (post q r s).intEn = s.intEn := rfl
@[simp] theorem post_intPend (q : Nat) (r : Request) : (post q r s).intPend = s.intPend := rfl
@[simp] theorem post_slot (q : Nat) (r : Request) : (post q r s).slot = s.slot := rfl
@[simp] theorem post_phy (q : Nat) (r : Request) : (post q r s).phy = s.phy := rfl
@[simp] theorem post_env (q : Nat) (r : Request) : (post q r s).env = s.env := rfl
@[simp] theorem post_codes (q : Nat) (r : Request) : (post q r s).codes = s.codes := rfl
@[simp] theorem post_pclk (q : Nat) (r : Request) : (post q r s).pclk = s.pclk := rfl
@[simp] theorem post_mdc (q : Nat) (r : Request) : (post q r s).mdc = s.mdc := rfl
@[simp] theorem post_agenda (q : Nat) (r : Request) : (post q r s).agenda = s.agenda := rfl
@[simp] theorem post_cur (q : Nat) (r : Request) : (post q r s).cur = s.cur := rfl
@[simp] theorem post_draws (q : Nat) (r : Request) : (post q r s).draws = s.draws := rfl

/-! ### `respond` -/

@[simp] theorem respond_life (q : Nat) (v : Response) : (respond q v s).life = s.life := rfl
@[simp] theorem respond_proto (q : Nat) (v : Response) : (respond q v s).proto = s.proto := rfl
@[simp] theorem respond_guard (q : Nat) (v : Response) : (respond q v s).guard = s.guard := rfl
@[simp] theorem respond_owner (q : Nat) (v : Response) : (respond q v s).owner = s.owner := rfl
@[simp] theorem respond_fsm (q : Nat) (v : Response) : (respond q v s).fsm = s.fsm := rfl
@[simp] theorem respond_d (q : Nat) (v : Response) : (respond q v s).d = s.d := rfl
@[simp] theorem respond_polls (q : Nat) (v : Response) : (respond q v s).polls = s.polls := rfl
@[simp] theorem respond_rdata (q : Nat) (v : Response) : (respond q v s).rdata = s.rdata := rfl
@[simp] theorem respond_err (q : Nat) (v : Response) : (respond q v s).err = s.err := rfl
@[simp] theorem respond_pend (q : Nat) (v : Response) : (respond q v s).pend = tableErase s.pend q := rfl
@[simp] theorem respond_resp (q : Nat) (v : Response) : (respond q v s).resp = tablePut s.resp q v := rfl
@[simp] theorem respond_mbe (q : Nat) (v : Response) : (respond q v s).mbe = s.mbe := rfl
@[simp] theorem respond_div (q : Nat) (v : Response) : (respond q v s).div = s.div := rfl
@[simp] theorem respond_idle (q : Nat) (v : Response) : (respond q v s).idle = s.idle := rfl
@[simp] theorem respond_cmd (q : Nat) (v : Response) : (respond q v s).cmd = s.cmd := rfl
@[simp] theorem respond_intEn (q : Nat) (v : Response) : (respond q v s).intEn = s.intEn := rfl
@[simp] theorem respond_intPend (q : Nat) (v : Response) : (respond q v s).intPend = s.intPend := rfl
@[simp] theorem respond_slot (q : Nat) (v : Response) : (respond q v s).slot = s.slot := rfl
@[simp] theorem respond_phy (q : Nat) (v : Response) : (respond q v s).phy = s.phy := rfl
@[simp] theorem respond_env (q : Nat) (v : Response) : (respond q v s).env = s.env := rfl
@[simp] theorem respond_codes (q : Nat) (v : Response) : (respond q v s).codes = s.codes := rfl
@[simp] theorem respond_pclk (q : Nat) (v : Response) : (respond q v s).pclk = s.pclk := rfl
@[simp] theorem respond_mdc (q : Nat) (v : Response) : (respond q v s).mdc = s.mdc := rfl
@[simp] theorem respond_agenda (q : Nat) (v : Response) : (respond q v s).agenda = s.agenda := rfl
@[simp] theorem respond_cur (q : Nat) (v : Response) : (respond q v s).cur = s.cur := rfl
@[simp] theorem respond_draws (q : Nat) (v : Response) : (respond q v s).draws = s.draws := rfl

/-! ### `takeResponse` -/

@[simp] theorem takeResponse_life (q : Nat) : (takeResponse q s).life = s.life := rfl
@[simp] theorem takeResponse_proto (q : Nat) : (takeResponse q s).proto = s.proto := rfl
@[simp] theorem takeResponse_guard (q : Nat) : (takeResponse q s).guard = s.guard := rfl
@[simp] theorem takeResponse_owner (q : Nat) : (takeResponse q s).owner = s.owner := rfl
@[simp] theorem takeResponse_fsm (q : Nat) : (takeResponse q s).fsm = s.fsm := rfl
@[simp] theorem takeResponse_d (q : Nat) : (takeResponse q s).d = s.d := rfl
@[simp] theorem takeResponse_polls (q : Nat) : (takeResponse q s).polls = s.polls := rfl
@[simp] theorem takeResponse_rdata (q : Nat) : (takeResponse q s).rdata = s.rdata := rfl
@[simp] theorem takeResponse_err (q : Nat) : (takeResponse q s).err = s.err := rfl
@[simp] theorem takeResponse_pend (q : Nat) : (takeResponse q s).pend = s.pend := rfl
@[simp] theorem takeResponse_resp (q : Nat) : (takeResponse q s).resp = tableErase s.resp q := rfl
@[simp] theorem takeResponse_mbe (q : Nat) : (takeResponse q s).mbe = s.mbe := rfl
@[simp] theorem takeResponse_div (q : Nat) : (takeResponse q s).div = s.div := rfl
@[simp] theorem takeResponse_idle (q : Nat) : (takeResponse q s).idle = s.idle := rfl
@[simp] theorem takeResponse_cmd (q : Nat) : (takeResponse q s).cmd = s.cmd := rfl
@[simp] theorem takeResponse_intEn (q : Nat) : (takeResponse q s).intEn = s.intEn := rfl
@[simp] theorem takeResponse_intPend (q : Nat) : (takeResponse q s).intPend = s.intPend := rfl
@[simp] theorem takeResponse_slot (q : Nat) : (takeResponse q s).slot = s.slot := rfl
@[simp] theorem takeResponse_phy (q : Nat) : (takeResponse q s).phy = s.phy := rfl
@[simp] theorem takeResponse_env (q : Nat) : (takeResponse q s).env = s.env := rfl
@[simp] theorem takeResponse_codes (q : Nat) : (takeResponse q s).codes = s.codes := rfl
@[simp] theorem takeResponse_pclk (q : Nat) : (takeResponse q s).pclk = s.pclk := rfl
@[simp] theorem takeResponse_mdc (q : Nat) : (takeResponse q s).mdc = s.mdc := rfl
@[simp] theorem takeResponse_agenda (q : Nat) : (takeResponse q s).agenda = s.agenda := rfl
@[simp] theorem takeResponse_cur (q : Nat) : (takeResponse q s).cur = s.cur := rfl
@[simp] theorem takeResponse_draws (q : Nat) : (takeResponse q s).draws = s.draws := rfl

/-! ### `takeGuard` -/

@[simp] theorem takeGuard_life (q : Nat) (x : Desc) : (takeGuard q x s).life = s.life := rfl
@[simp] theorem takeGuard_proto (q : Nat) (x : Desc) : (takeGuard q x s).proto = s.proto := rfl
@[simp] theorem takeGuard_guard (q : Nat) (x : Desc) : (takeGuard q x s).guard = .held := rfl
@[simp] theorem takeGuard_owner (q : Nat) (x : Desc) : (takeGuard q x s).owner = q := rfl
@[simp] theorem takeGuard_fsm (q : Nat) (x : Desc) : (takeGuard q x s).fsm = s.fsm := rfl
@[simp] theorem takeGuard_d (q : Nat) (x : Desc) : (takeGuard q x s).d = x := rfl
@[simp] theorem takeGuard_polls (q : Nat) (x : Desc) : (takeGuard q x s).polls = 0 := rfl
@[simp] theorem takeGuard_rdata (q : Nat) (x : Desc) : (takeGuard q x s).rdata = s.rdata := rfl
@[simp] theorem takeGuard_err (q : Nat) (x : Desc) : (takeGuard q x s).err = s.err := rfl
@[simp] theorem takeGuard_pend (q : Nat) (x : Desc) : (takeGuard q x s).pend = s.pend := rfl
@[simp] theorem takeGuard_resp (q : Nat) (x : Desc) : (takeGuard q x s).resp = s.resp := rfl
@[simp] theorem takeGuard_mbe (q : Nat) (x : Desc) : (takeGuard q x s).mbe = s.mbe := rfl
@[simp] theorem takeGuard_div (q : Nat) (x : Desc) : (takeGuard q x s).div = s.div := rfl
@[simp] theorem takeGuard_idle (q : Nat) (x : Desc) : (takeGuard q x s).idle = s.idle := rfl
@[simp] theorem takeGuard_cmd (q : Nat) (x : Desc) : (takeGuard q x s).cmd = s.cmd := rfl
@[simp] theorem takeGuard_intEn (q : Nat) (x : Desc) : (takeGuard q x s).intEn = s.intEn := rfl
@[simp] theorem takeGuard_intPend (q : Nat) (x : Desc) : (takeGuard q x s).intPend = s.intPend := rfl
@[simp] theorem takeGuard_slot (q : Nat) (x : Desc) : (takeGuard q x s).slot = s.slot := rfl
@[simp] theorem takeGuard_phy (q : Nat) (x : Desc) : (takeGuard q x s).phy = s.phy := rfl
@[simp] theorem takeGuard_env (q : Nat) (x : Desc) : (takeGuard q x s).env = s.env := rfl
@[simp] theorem takeGuard_codes (q : Nat) (x : Desc) : (takeGuard q x s).codes = s.codes := rfl
@[simp] theorem takeGuard_pclk (q : Nat) (x : Desc) : (takeGuard q x s).pclk = s.pclk := rfl
@[simp] theorem takeGuard_mdc (q : Nat) (x : Desc) : (takeGuard q x s).mdc = s.mdc := rfl
@[simp] theorem takeGuard_agenda (q : Nat) (x : Desc) : (takeGuard q x s).agenda = s.agenda := rfl
@[simp] theorem takeGuard_cur (q : Nat) (x : Desc) : (takeGuard q x s).cur = s.cur := rfl
@[simp] theorem takeGuard_draws (q : Nat) (x : Desc) : (takeGuard q x s).draws = s.draws := rfl

/-! ### `freeGuard` -/

@[simp] theorem freeGuard_life : (freeGuard s).life = s.life := rfl
@[simp] theorem freeGuard_proto : (freeGuard s).proto = s.proto := rfl
@[simp] theorem freeGuard_guard : (freeGuard s).guard = .available := rfl
@[simp] theorem freeGuard_owner : (freeGuard s).owner = s.owner := rfl
@[simp] theorem freeGuard_fsm : (freeGuard s).fsm = s.fsm := rfl
@[simp] theorem freeGuard_d : (freeGuard s).d = s.d := rfl
@[simp] theorem freeGuard_polls : (freeGuard s).polls = s.polls := rfl
@[simp] theorem freeGuard_rdata : (freeGuard s).rdata = s.rdata := rfl
@[simp] theorem freeGuard_err : (freeGuard s).err = s.err := rfl
@[simp] theorem freeGuard_pend : (freeGuard s).pend = s.pend := rfl
@[simp] theorem freeGuard_resp : (freeGuard s).resp = s.resp := rfl
@[simp] theorem freeGuard_mbe : (freeGuard s).mbe = s.mbe := rfl
@[simp] theorem freeGuard_div : (freeGuard s).div = s.div := rfl
@[simp] theorem freeGuard_idle : (freeGuard s).idle = s.idle := rfl
@[simp] theorem freeGuard_cmd : (freeGuard s).cmd = s.cmd := rfl
@[simp] theorem freeGuard_intEn : (freeGuard s).intEn = s.intEn := rfl
@[simp] theorem freeGuard_intPend : (freeGuard s).intPend = s.intPend := rfl
@[simp] theorem freeGuard_slot : (freeGuard s).slot = s.slot := rfl
@[simp] theorem freeGuard_phy : (freeGuard s).phy = s.phy := rfl
@[simp] theorem freeGuard_env : (freeGuard s).env = s.env := rfl
@[simp] theorem freeGuard_codes : (freeGuard s).codes = s.codes := rfl
@[simp] theorem freeGuard_pclk : (freeGuard s).pclk = s.pclk := rfl
@[simp] theorem freeGuard_mdc : (freeGuard s).mdc = s.mdc := rfl
@[simp] theorem freeGuard_agenda : (freeGuard s).agenda = s.agenda := rfl
@[simp] theorem freeGuard_cur : (freeGuard s).cur = s.cur := rfl
@[simp] theorem freeGuard_draws : (freeGuard s).draws = s.draws := rfl

end Sys2Proof.Machine
end

