-- ==== Sys2Proof/Laws/Table.lean ====
section
/-!
SUPPORT. Tables and the MDIO space: reading after a write, and the canonical form that every operation keeps.
-/

namespace Sys2Proof.Machine

/-! ## Tables -/

section
variable {α : Type} (l : List (Nat × α)) (a b : Nat) (v : α)

@[simp] theorem tableFind_nil : tableFind ([] : List (Nat × α)) a = none := rfl

@[simp] theorem tableFind_put_self : tableFind (tablePut l a v) a = some v := by
  induction l with
  | nil => simp [tablePut, tableFind]
  | cons e l ih =>
    obtain ⟨k, u⟩ := e
    simp only [tablePut]
    split
    · simp [tableFind]
    · split
      · simp [tableFind]
      · next h => simp [tableFind, Ne.symm h, ih]

theorem tableFind_put_other (h : b ≠ a) : tableFind (tablePut l a v) b = tableFind l b := by
  induction l with
  | nil => simp [tablePut, tableFind, Ne.symm h]
  | cons e l ih =>
    obtain ⟨k, u⟩ := e
    simp only [tablePut]
    split
    · simp [tableFind, Ne.symm h]
    · split
      · next hk => subst hk; simp [tableFind, Ne.symm h]
      · simp [tableFind, ih]

@[simp] theorem tableFind_erase_self : tableFind (tableErase l a) a = none := by
  induction l with
  | nil => rfl
  | cons e l ih =>
    obtain ⟨k, u⟩ := e
    by_cases h : k = a
    · subst h; simpa [tableErase] using ih
    · simpa [tableErase, h, tableFind] using ih

theorem tableFind_erase_other (h : b ≠ a) : tableFind (tableErase l a) b = tableFind l b := by
  induction l with
  | nil => rfl
  | cons e l ih =>
    obtain ⟨k, u⟩ := e
    by_cases hk : k = a
    · subst hk; simpa [tableErase, tableFind, Ne.symm h] using ih
    · simp only [tableErase] at ih
      simp [tableErase, hk, tableFind, ih]

/-- What a put table lists: the new entry, or an old one. -/
theorem mem_tablePut {e : Nat × α} (h : e ∈ tablePut l a v) : e = (a, v) ∨ e ∈ l := by
  induction l with
  | nil => exact .inl (by simpa [tablePut] using h)
  | cons f l ih =>
    obtain ⟨k, u⟩ := f
    simp only [tablePut] at h
    split at h
    · simpa using h
    · split at h
      · rcases List.mem_cons.mp h with h | h
        · exact .inl h
        · exact .inr (List.mem_cons_of_mem _ h)
      · rcases List.mem_cons.mp h with h | h
        · exact .inr (h ▸ List.mem_cons_self)
        · exact (ih h).imp id (List.mem_cons_of_mem _)

theorem tableSorted_put (h : tableSorted l) : tableSorted (tablePut l a v) := by
  induction l with
  | nil => exact List.pairwise_singleton _ _
  | cons e l ih =>
    obtain ⟨k, u⟩ := e
    obtain ⟨hhd, htl⟩ := List.pairwise_cons.mp h
    simp only [tablePut]
    split
    · next hlt =>
      refine List.pairwise_cons.mpr ⟨fun f hf => ?_, h⟩
      rcases List.mem_cons.mp hf with rfl | hf
      · exact hlt
      · exact Nat.lt_trans hlt (hhd f hf)
    · split
      · next heq => exact List.pairwise_cons.mpr ⟨heq ▸ hhd, htl⟩
      · refine List.pairwise_cons.mpr ⟨fun f hf => ?_, ih htl⟩
        rcases mem_tablePut l a v hf with rfl | hf
        · show k < a
          omega
        · exact hhd f hf

theorem tableSorted_erase (h : tableSorted l) : tableSorted (tableErase l a) :=
  List.Pairwise.filter _ h

/-- What is found is listed. -/
theorem mem_of_tableFind (h : tableFind l a = some v) : (a, v) ∈ l := by
  induction l with
  | nil => simp at h
  | cons e l ih =>
    obtain ⟨k, u⟩ := e
    simp only [tableFind] at h
    split at h
    · next hk => cases h; exact hk ▸ List.mem_cons_self
    · exact List.mem_cons_of_mem _ (ih h)

/-- In a sorted table what is listed is found. -/
theorem tableFind_of_mem (hs : tableSorted l) (h : (a, v) ∈ l) : tableFind l a = some v := by
  induction l with
  | nil => simp at h
  | cons e l ih =>
    obtain ⟨k, u⟩ := e
    obtain ⟨hhd, htl⟩ := List.pairwise_cons.mp hs
    rcases List.mem_cons.mp h with h | h
    · cases h; simp [tableFind]
    · have hk : k ≠ a := Nat.ne_of_lt (hhd _ h)
      simp [tableFind, hk, ih htl h]

end

/-! ## The MDIO space -/

section
variable (m : Memory) (a b : Nat) (x : Byte) (t r t' r' : Addr) (v : Half)

@[simp] theorem readByte_writeByte_self : readByte (writeByte m a x) a = some x :=
  tableFind_put_self m a x

theorem readByte_writeByte_other (h : b ≠ a) : readByte (writeByte m a x) b = readByte m b :=
  tableFind_put_other m a b x h

theorem writeByte_wf (h : Memory.wf m) (ha : a < mdioBytes) : Memory.wf (writeByte m a x) := by
  refine ⟨tableSorted_put m a x h.1, fun e he => ?_⟩
  rcases mem_tablePut m a x he with rfl | he
  · exact ha
  · exact h.2 e he

/-- The memory at reset has the form. -/
theorem reset_phy_wf : Memory.wf State.reset.phy := ⟨List.Pairwise.nil, fun _ h => nomatch h⟩

theorem phyAddr_lt : phyAddr t r + 1 < mdioBytes := by
  have := t.isLt; have := r.isLt
  simp only [phyAddr, mdioBytes]; omega

/-- Different locations have no byte in common. -/
theorem phyAddr_inj (h : phyAddr t r = phyAddr t' r') : t = t' ∧ r = r' := by
  have := t.isLt; have := r.isLt; have := t'.isLt; have := r'.isLt
  simp only [phyAddr] at h
  constructor <;> apply BitVec.eq_of_toNat_eq <;> omega

/-- A write of a location changes its two bytes and no other. -/
theorem readByte_phyWrite_other (h : a ≠ phyAddr t r) (h' : a ≠ phyAddr t r + 1) :
    readByte (phyWrite m t r v) a = readByte m a := by
  rw [phyWrite, readByte_writeByte_other _ _ _ _ h', readByte_writeByte_other _ _ _ _ h]

/-- A write keeps the canonical form. -/
theorem phyWrite_wf (h : Memory.wf m) : Memory.wf (phyWrite m t r v) :=
  writeByte_wf _ _ _ (writeByte_wf _ _ _ h (Nat.lt_of_succ_lt (phyAddr_lt t r))) (phyAddr_lt t r)

theorem half_of_bytes : (v.extractLsb' 8 8 ++ v.extractLsb' 0 8 : Half) = v := by
  apply BitVec.eq_of_getLsbD_eq
  intro i hi
  rw [BitVec.getLsbD_append]
  by_cases h : i < 8
  · simp [h]
  · have h8 : i - 8 < 8 := by omega
    have hi8 : 8 + (i - 8) = i := by omega
    simp [h, h8, hi8]

/-- A location reads as what was written to it last. -/
@[simp] theorem phyRead_phyWrite_self : phyRead (phyWrite m t r v) t r = v := by
  have hlo : readByte (phyWrite m t r v) (phyAddr t r) = some (v.extractLsb' 0 8) := by
    rw [phyWrite, readByte_writeByte_other _ _ _ _ (Nat.ne_of_lt (Nat.lt_succ_self _)),
      readByte_writeByte_self]
  have hhi : readByte (phyWrite m t r v) (phyAddr t r + 1) = some (v.extractLsb' 8 8) := by
    rw [phyWrite, readByte_writeByte_self]
  rw [phyRead, hlo, hhi]
  exact half_of_bytes v

/-- A write leaves every other location as it was. -/
theorem phyRead_phyWrite_other (h : ¬ (t' = t ∧ r' = r)) :
    phyRead (phyWrite m t r v) t' r' = phyRead m t' r' := by
  have hne : phyAddr t' r' ≠ phyAddr t r := fun he => h (phyAddr_inj _ _ _ _ he)
  have heven : ∀ x y : Addr, phyAddr x y % 2 = 0 := fun x y => Nat.mul_mod_right 2 _
  have h1 := heven t r; have h2 := heven t' r'
  unfold phyRead
  rw [readByte_phyWrite_other _ _ _ _ _ (by omega) (by omega),
    readByte_phyWrite_other _ _ _ _ _ (by omega) (by omega)]

end

end Sys2Proof.Machine
end

