-- ==== Sys2Proof/Laws/Step.lean ====
section
/-!
SUPPORT. Everything a step can do, said once: where an executed instruction comes from, what a turn without one changes, and
the principle by which an invariant of the step is shown.
-/

namespace Sys2Proof.Machine

/-- Where the instruction of a step comes from, in terms of the state it is executed in. -/
inductive Origin (i : Instr) (s : State) : Prop where
  /-- The arbiter's choice, about to be acquired. -/
  | grant (req : Request) (hf : s.fsm = .idle) (hp : tableFind s.pend s.cur = some req)
      (hd : decodeRequest req = .instr i) (ht : (∃ t r, i = .rd t r) ∨ ∃ t r v, i = .wr t r v)
  /-- The transaction in flight. -/
  | flight (hf : s.fsm ≠ .idle) (hi : i = latched s) (hc : s.cur = s.owner) (hp : simCompletes s = false)
  /-- An operation of the lifecycle controller. -/
  | lifecycle (req : Request) (hp : tableFind s.pend s.cur = some req) (hd : decodeRequest req = .instr i)
      (ht : i = .ben ∨ i = .bdis ∨ ∃ f p, i = .init f p) (hs : disableForbidden i s = false)
  /-- The command in the controller's slot. -/
  | command (w : Word) (ov : Bool) (hs : s.slot = .full w ov) (hm : s.mbe = true)
      (hd : decodeCommand s.codes.params w = .instr i)
  /-- The code in `CLKCFG.DIV`. -/
  | clock (hl : s.life = .ready) (hd : decodeDivisor s.div = .instr i)

/-- A state with other bookkeeping: the turns to come, the draws made, the requester served. -/
def rebook (l : List Turn) (n q : Nat) (s : State) : State := { s with agenda := l, draws := n, cur := q }

/-- What the turn of an agent comes to. -/
inductive TurnResult (s : State) : Fetched → Prop where
  | run (i : Instr) (q : Nat) (h : Origin i (serving q s)) : TurnResult s (.run i (serving q s))
  | runHere (i : Instr) (h : Origin i s) : TurnResult s (.run i s)
  | pass : TurnResult s (.done (.next s))
  | take (q : Nat) : TurnResult s (.done (.next (takeResponse q s)))
  | raise (bits : Word) : TurnResult s (.done (.next (raiseInterrupts bits s)))
  | submit (q : Nat) (req : Request) (i : Instr) (hq : q < Config.nReq) (hp : tableFind s.pend q = none)
      (hr : tableFind s.resp q = none) (hd : decodeRequest req = .instr i) (hl : refusal i s.life = none)
      (hs : disableForbidden i s = false) :
      TurnResult s (.done (.next (post q req s)))
  | refused (e : Refusal) : TurnResult s (.done (.refused e))
  | fault (e : Fault) : TurnResult s (.done (.fault e))

theorem fetchEngine_result (q : Nat) (s : State) (hc : simCompletes s = false) :
    TurnResult s (fetchEngine q s) := by
  unfold fetchEngine
  split
  · next hf =>
    split
    · exact .pass
    · next req hp =>
      split
      · next t r hd => exact .run _ _ (.grant req hf hp hd (.inl ⟨t, r, rfl⟩))
      · next t r v hd => exact .run _ _ (.grant req hf hp hd (.inr ⟨t, r, v, rfl⟩))
      · exact .pass
  · next hf => exact .run _ _ (.flight hf rfl rfl hc)

theorem fetchLifecycle_result (q : Nat) (s : State) : TurnResult s (fetchLifecycle q s) := by
  unfold fetchLifecycle
  split
  · exact .pass
  · next req hp =>
    split
    · next hd => exact .run _ _ (.lifecycle req hp hd (.inl rfl) rfl)
    · next hd =>
      split
      · exact .refused _
      · next hs =>
        exact .run _ _ (.lifecycle req hp hd (.inr (.inl rfl))
          (show (decide (Instr.bdis = .bdis) && simForbidsDisable s) = false by simpa using hs))
    · next f p hd => exact .run _ _ (.lifecycle req hp hd (.inr (.inr ⟨f, p, rfl⟩)) rfl)
    · exact .pass
    · exact .refused _

theorem fetchController_result (s : State) : TurnResult s (fetchController s) := by
  unfold fetchController
  split
  · exact .pass
  · next w ov hs =>
    split
    · next hm =>
      split
      · next i hd => exact .runHere _ (.command w ov hs hm hd)
      · exact .fault _
    · exact .pass

theorem fetchClock_result (s : State) : TurnResult s (fetchClock s) := by
  unfold fetchClock
  split
  · next hl =>
    split
    · next i hd => exact .runHere _ (.clock hl hd)
    · exact .refused _
  · exact .pass

theorem submit_result (q : Nat) (req : Request) (s : State) : TurnResult s (.done (submit q req s)) := by
  unfold submit
  split
  · exact .refused _
  · next hq =>
    split
    · exact .refused _
    · next hb =>
      simp only [Bool.or_eq_true, Option.isSome_iff_ne_none, not_or, not_not] at hb
      split
      · exact .refused _
      · next i hd =>
        split
        · exact .refused _
        · next hl =>
          split
          · exact .refused _
          · next hs => exact .submit q req i (Decidable.not_not.mp hq) hb.1 hb.2 hd hl (by simpa using hs)

/-- Every turn comes to one of these. -/
theorem takeTurn_result (t : Turn) (s : State) (hc : simCompletes s = false) :
    TurnResult s (takeTurn t s) := by
  cases t with
  | submit q req => exact submit_result q req s
  | engine q => exact fetchEngine_result q s hc
  | lifecycle q => exact fetchLifecycle_result q s
  | controller =>
    simp only [takeTurn]
    split
    · exact .pass
    · exact fetchController_result s
  | clockGenerator => exact fetchClock_result s
  | takeResponse q => exact .take q
  | raiseInterrupts bits => exact .raise bits

/-- The state a turn is taken in: the step's state with only its agenda and its count of draws changed. -/
theorem ownTurn_state (s : State) : (ownTurn s).2 = s ∨ (ownTurn s).2 = countDraw s := by
  unfold ownTurn
  split
  · exact .inl rfl
  · split
    · split
      · exact .inl rfl
      · exact .inl rfl
      · exact .inr rfl
    · exact .inl rfl

/-- Every fetch is a turn's result in a state that differs from the step's in bookkeeping only. -/
theorem fetch_result (s : State) : ∃ l n, TurnResult (rebook l n s.cur s) (fetch s) := by
  unfold fetch
  split
  · exact ⟨s.agenda, s.draws, fetchController_result s⟩
  · next hc =>
    have hc' : simCompletes s = false := by simpa using hc
    split
    · next t rest _ => exact ⟨rest, s.draws, takeTurn_result t _ hc'⟩
    · have hst := ownTurn_state s
      split
      · next t s' he =>
        simp only [he] at hst
        rcases hst with rfl | rfl
        · exact ⟨s'.agenda, s'.draws, takeTurn_result t _ hc'⟩
        · exact ⟨s.agenda, s.draws + 1, takeTurn_result t _ hc'⟩
      · next s' he =>
        simp only [he] at hst
        rcases hst with rfl | rfl
        · exact ⟨s'.agenda, s'.draws, .pass⟩
        · exact ⟨s.agenda, s.draws + 1, .pass⟩

/-- What a step that answers a next state has done: it executed an instruction from one of its origins, or it was a
submission, a response taken, interrupts raised, or a turn that passed. -/
theorem step_cases {s t : State} (h : step s = .next t) :
    ∃ l n q, (∃ i, Origin i (rebook l n q s) ∧ exec i (rebook l n q s) = .next t) ∨
      t = rebook l n q s ∨ (∃ r, t = takeResponse r (rebook l n q s)) ∨
      (∃ bits, t = raiseInterrupts bits (rebook l n q s)) ∨
      ∃ r req i, r < Config.nReq ∧ tableFind s.pend r = none ∧ tableFind s.resp r = none ∧
        decodeRequest req = .instr i ∧ refusal i s.life = none ∧ disableForbidden i s = false ∧
        t = post r req (rebook l n q s) := by
  obtain ⟨l, n, hr⟩ := fetch_result s
  unfold step at h
  generalize fetch s = f at h hr
  cases hr with
  | run i q ho => exact ⟨l, n, q, .inl ⟨i, ho, h⟩⟩
  | runHere i ho => exact ⟨l, n, s.cur, .inl ⟨i, ho, h⟩⟩
  | pass => cases h; exact ⟨l, n, s.cur, .inr (.inl rfl)⟩
  | take q => cases h; exact ⟨l, n, s.cur, .inr (.inr (.inl ⟨q, rfl⟩))⟩
  | raise bits => cases h; exact ⟨l, n, s.cur, .inr (.inr (.inr (.inl ⟨bits, rfl⟩)))⟩
  | submit q req i hq hp hr hd hl hs =>
    cases h
    exact ⟨l, n, s.cur, .inr (.inr (.inr (.inr ⟨q, req, i, hq, hp, hr, hd, hl, hs, rfl⟩)))⟩
  | refused e => cases h
  | fault e => cases h

/-- To show that every step keeps `P`: bookkeeping keeps it, the three host turns keep it, and every instruction keeps it
from the states it is executed in. -/
theorem step_keeps {P : State → Prop}
    (hbook : ∀ l n q s, P s → P (rebook l n q s))
    (htake : ∀ q s, P s → P (takeResponse q s))
    (hraise : ∀ bits s, P s → P (raiseInterrupts bits s))
    (hpost : ∀ q req i s, tableFind s.pend q = none → tableFind s.resp q = none → decodeRequest req = .instr i →
      refusal i s.life = none → P s → P (post q req s))
    (hexec : ∀ i s t, Origin i s → P s → exec i s = .next t → P t)
    {s t : State} (h : step s = .next t) (hs : P s) : P t := by
  obtain ⟨l, n, q, ⟨i, ho, he⟩ | rfl | ⟨r, rfl⟩ | ⟨bits, rfl⟩ | ⟨r, req, i, -, hp, hr, hd, hl, -, rfl⟩⟩ := step_cases h
  · exact hexec i _ t ho (hbook l n q s hs) he
  · exact hbook l n q s hs
  · exact htake r _ (hbook l n q s hs)
  · exact hraise bits _ (hbook l n q s hs)
  · exact hpost r req i _ hp hr hd hl (hbook l n q s hs)

end Sys2Proof.Machine
end

