-- ==== Sys2Proof/Laws/Exec.lean ====
section
/-!
SUPPORT. One lemma per shared operation that says everything it can do, and what each instruction answers when it answers a
next state.
-/

namespace Sys2Proof.Machine

/-! ## Operands -/

@[simp] theorem lowAddr_wideAddr (x : Addr) : lowAddr (wideAddr x) = x := by
  revert x; decide

theorem wideAddr_lt (x : Addr) : (wideAddr x).toNat < 32 := by
  revert x; decide

theorem wideAddr_lowAddr {x : BitVec 8} (h : x.toNat < 32) : wideAddr (lowAddr x) = x := by
  apply BitVec.eq_of_toNat_eq
  simp only [wideAddr, lowAddr, BitVec.toNat_setWidth]
  omega

/-- READ and WRITE are refused unless READY with addresses of 0 to 31. -/
theorem refusal_rd_none {t r : BitVec 8} {l : Life} :
    refusal (.rd t r) l = none ↔ l = .ready ∧ t.toNat < 32 ∧ r.toNat < 32 := by
  by_cases h : l = .ready <;> by_cases ht : t.toNat < 32 ∧ r.toNat < 32 <;>
    simp [refusal, lifeRefusal, operandRefusal, readyRefusal, addressRefusal, h, ht]

theorem refusal_wr_none {t r : BitVec 8} {v : Half} {l : Life} :
    refusal (.wr t r v) l = none ↔ l = .ready ∧ t.toNat < 32 ∧ r.toNat < 32 := by
  by_cases h : l = .ready <;> by_cases ht : t.toNat < 32 ∧ r.toNat < 32 <;>
    simp [refusal, lifeRefusal, operandRefusal, readyRefusal, addressRefusal, h, ht]

theorem refusal_ben_none {l : Life} : refusal .ben l = none ↔ l = .ready := by
  by_cases h : l = .ready <;> simp [refusal, lifeRefusal, operandRefusal, readyRefusal, h]

theorem refusal_bdis_none {l : Life} : refusal .bdis l = none ↔ l = .ready := by
  by_cases h : l = .ready <;> simp [refusal, lifeRefusal, operandRefusal, readyRefusal, h]

theorem refusal_init_none {f : BitVec 32} {p : BitVec 2} {l : Life} :
    refusal (.init f p) l = none ↔ l = .uninit ∧ f ≠ 0#32 := by
  by_cases h : l = .uninit <;> by_cases hf : f = 0#32 <;>
    simp [refusal, lifeRefusal, operandRefusal, uninitRefusal, h, hf]

/-- An operation that is not refused is well-formed. -/
theorem wellFormed_of_refusal_none {i : Instr} {l : Life} (h : refusal i l = none) : i.WellFormed := by
  cases i
  case rd => exact (refusal_rd_none.mp h).2
  case wr => exact (refusal_wr_none.mp h).2
  case init => exact (refusal_init_none.mp h).2
  all_goals trivial

/-! ## The interrupt registers -/

/-- Bit `i` of the mask is whether source `i` exists. -/
theorem getLsbD_sourceMask (i : Nat) : sourceMask.getLsbD i = decide (i < Config.nInt) := by
  have h : Config.nInt < 33 := Config.intSources.isLt
  rw [sourceMask, BitVec.getLsbD_ofNat, Nat.testBit_two_pow_sub_one]
  by_cases hi : i < 32
  · simp [hi]
  · simp [hi, show ¬ i < Config.nInt by omega]

/-- What a raise leaves in `INT_PEND`, bit by bit (`10_state.md` R39). -/
theorem getLsbD_raiseInterrupts (bits : Word) (s : State) (i : Nat) :
    (raiseInterrupts bits s).intPend.getLsbD i =
      (s.intPend.getLsbD i || (decide (i < Config.nInt) && bits.getLsbD i)) := by
  simp only [raiseInterrupts, BitVec.getLsbD_or, BitVec.getLsbD_and, getLsbD_sourceMask, Bool.and_comm]

/-! ## The controller -/

/-- A free Write: performed or not, one draw. -/
theorem maybeWrite_eq (t r : Addr) (v : Half) (s : State) :
    maybeWrite t r v s =
      { s with
        phy := if Config.freeChoice s.draws then phyWrite s.phy t r v else s.phy, draws := s.draws + 1 } := by
  unfold maybeWrite
  split <;> rfl

/-- Abandoning a command changes the memory and the draws only, and the memory only by the command's own Write. -/
theorem abandonCommand_eq (w : Word) (ov : Bool) (s : State) :
    ∃ m n, abandonCommand w s = { s with phy := m, draws := n } ∧
      (∀ t r v, slotWrite s.codes (.full w ov) = some (t, r, v) →
        m = if Config.freeChoice s.draws then phyWrite s.phy t r v else s.phy) ∧
      (slotWrite s.codes (.full w ov) = none → m = s.phy) := by
  rcases decodeCommand_cases s.codes.params w with ⟨t, r, h⟩ | ⟨t, r, v, h⟩ | ⟨t, r, h⟩ | ⟨t, r, v, h⟩ | h
  · exact ⟨s.phy, s.draws, by simp [abandonCommand, h], by simp [slotWrite, h], by simp⟩
  · refine ⟨_, _, by simp only [abandonCommand, h]; exact maybeWrite_eq t r v s, ?_, ?_⟩
    · intro t' r' v' he
      simp only [slotWrite, h, Option.some.injEq, Prod.mk.injEq] at he
      obtain ⟨rfl, rfl, rfl⟩ := he
      rfl
    · simp [slotWrite, h]
  · exact ⟨s.phy, s.draws, by simp [abandonCommand, h], by simp [slotWrite, h], by simp⟩
  · refine ⟨_, _, by simp only [abandonCommand, h]; exact maybeWrite_eq t r v s, ?_, ?_⟩
    · intro t' r' v' he
      simp only [slotWrite, h, Option.some.injEq, Prod.mk.injEq] at he
      obtain ⟨rfl, rfl, rfl⟩ := he
      rfl
    · simp [slotWrite, h]
  · exact ⟨s.phy, s.draws, by simp [abandonCommand, h], by simp [slotWrite, h], by simp⟩

/-- The write of `CMD`, whole. -/
theorem startCommand_eq (w : Word) (s : State) :
    ∃ m n, startCommand w s =
        { s with
          cmd := w, idle := false, slot := .full w (slotFull s.slot || !s.mbe), phy := m, draws := n } ∧
      (∀ t r v, slotWrite s.codes s.slot = some (t, r, v) →
        m = if Config.freeChoice s.draws then phyWrite s.phy t r v else s.phy) ∧
      (slotWrite s.codes s.slot = none → m = s.phy) ∧ (s.slot = .empty → n = s.draws) := by
  cases hs : s.slot with
  | empty =>
    refine ⟨s.phy, s.draws, ?_, by simp [slotWrite], by simp, by simp⟩
    simp [startCommand, hs, setSlot, setIdle, setCmd, slotFull]
  | full old ov =>
    obtain ⟨m, n, he, h1, h2⟩ := abandonCommand_eq old ov s
    refine ⟨m, n, ?_, h1, h2, by simp⟩
    simp [startCommand, hs, setSlot, setIdle, setCmd, slotFull, he]

/-- A Read completed changes `CMD.DATA`, idle, the slot and the draws only. -/
theorem completeRead_eq (t r : Addr) (ov : Bool) (s : State) :
    ∃ v n, completeRead t r ov s =
        { s with cmd := setField s.codes.layout.data v s.cmd, idle := true, slot := .empty, draws := n } ∧
      (ov = false → v = memRead t r s) ∧ (ov = true → v = Config.freeData s.draws ∧ n = s.draws + 1) := by
  cases ov with
  | true => exact ⟨Config.freeData s.draws, s.draws + 1, rfl, by simp, by simp⟩
  | false =>
    refine ⟨memRead t r s, (afterMemRead s).draws, ?_, by simp, by simp⟩
    unfold afterMemRead
    split <;> simp_all [completeRead, afterMemRead, finishCommand, setCmdData, setCmd, setSlot, setIdle, countDraw]

/-- A Write completed changes its location, idle, the slot and the draws only. -/
theorem completeWrite_eq (t r : Addr) (v : Half) (ov : Bool) (s : State) :
    ∃ m n, completeWrite t r v ov s = { s with phy := m, idle := true, slot := .empty, draws := n } ∧
      (ov = false → m = phyWrite s.phy t r v ∧ n = s.draws) ∧
      (ov = true → m = (if Config.freeChoice s.draws then phyWrite s.phy t r v else s.phy) ∧ n = s.draws + 1) := by
  cases ov with
  | false => exact ⟨phyWrite s.phy t r v, s.draws, rfl, by simp, by simp⟩
  | true =>
    refine ⟨_, _, ?_, by simp, fun _ => ⟨rfl, rfl⟩⟩
    simp [completeWrite, maybeWrite_eq, finishCommand, setSlot, setIdle]

/-- The completion step: the state waits, or the command's effect happens. -/
theorem complete_cases (f : Bool → State → State) (s : State) :
    (complete f s = s ∧ (s.slot = .empty ∨ s.mbe = false)) ∨
      ∃ w ov, s.slot = .full w ov ∧ s.mbe = true ∧ complete f s = f ov s := by
  unfold complete
  split
  · next h => exact .inl ⟨rfl, .inl h⟩
  · next w ov h =>
    by_cases hm : s.mbe = true
    · exact .inr ⟨w, ov, h, hm, by simp [hm]⟩
    · exact .inl ⟨by simp [hm], .inr (by simpa using hm)⟩

/-! ## The engine -/

/-- Under a recognised protocol ENCODE answers a word. -/
theorem encodeTransaction_of_recognised (p : Params) {proto : BitVec 2} (h : recognised proto = true) (op : Op)
    (t r : Addr) (v : Half) : ∃ w, encodeTransaction p proto op t r v = some w := by
  rcases encodeTransaction_cases p proto op t r v with h' | h' | h' | h' | h'
  · simp [recognised, h'.1, h'.2.1] at h
  all_goals exact ⟨_, h'.2.2⟩

/-- Every transition of the engine (`42_transaction_engine.md` R144), with the whole next state. -/
theorem engineStep_cases (d : Desc) (s : State) :
    (s.fsm = .idle ∧
      engineStep d s = { s with guard := .held, owner := s.cur, d := d, polls := 0, fsm := .check }) ∨
    (s.fsm = .check ∧ recognised s.proto = true ∧ engineStep d s = { s with fsm := .enable }) ∨
    (s.fsm = .check ∧ recognised s.proto = false ∧
      engineStep d s = { s with err := .unsupportedProtocol, fsm := .release }) ∨
    (s.fsm = .enable ∧ engineStep d s = { s with mbe := true, fsm := .issue }) ∨
    (s.fsm = .issue ∧ ∃ w m n,
      encodeTransaction s.codes.params s.proto s.d.op s.d.tgt s.d.reg s.d.wdata = some w ∧
      engineStep d s =
        { s with
          cmd := w, idle := false, slot := .full w (slotFull s.slot || !s.mbe), phy := m, draws := n,
          fsm := .poll } ∧
      (∀ t r v, slotWrite s.codes s.slot = some (t, r, v) →
        m = if Config.freeChoice s.draws then phyWrite s.phy t r v else s.phy) ∧
      (slotWrite s.codes s.slot = none → m = s.phy)) ∨
    (s.fsm = .issue ∧ encodeTransaction s.codes.params s.proto s.d.op s.d.tgt s.d.reg s.d.wdata = none ∧
      engineStep d s = { s with err := .unsupportedProtocol, fsm := .release }) ∨
    (s.fsm = .poll ∧ s.idle = true ∧ engineStep d s = { s with polls := s.polls + 1, fsm := .capture }) ∨
    (s.fsm = .poll ∧ s.idle = false ∧ engineStep d s = { s with polls := s.polls + 1, fsm := .wait }) ∨
    (s.fsm = .wait ∧ s.polls = 50 ∧ engineStep d s = { s with err := .timeout, fsm := .release }) ∨
    (s.fsm = .wait ∧ s.polls ≠ 50 ∧ engineStep d s = { s with fsm := .poll }) ∨
    (s.fsm = .capture ∧
      engineStep d s =
        { s with
          rdata := if s.d.op = .read then cmdData s else s.rdata, err := .ok, fsm := .release }) ∨
    (s.fsm = .release ∧
      engineStep d s =
        { s with
          guard := .available, fsm := .idle, pend := tableErase s.pend s.owner,
          resp := tablePut s.resp s.owner (releaseResponse s) }) := by
  cases hf : s.fsm with
  | idle => exact .inl ⟨rfl, by simp [engineStep, hf, acquire, goto, takeGuard]⟩
  | check =>
    refine .inr ?_
    cases hr : recognised s.proto with
    | false =>
      exact .inr (.inl ⟨rfl, rfl, by simp [engineStep, hf, checkProtocol, hr, raiseError, goto, setErr]⟩)
    | true => exact .inl ⟨rfl, rfl, by simp [engineStep, hf, checkProtocol, hr, goto]⟩
  | enable =>
    exact .inr (.inr (.inr (.inl ⟨rfl, by simp [engineStep, hf, enableBus, goto, setMbe]⟩)))
  | issue =>
    refine .inr (.inr (.inr (.inr ?_)))
    cases he : encodeTransaction s.codes.params s.proto s.d.op s.d.tgt s.d.reg s.d.wdata with
    | none =>
      exact .inr (.inl ⟨rfl, rfl, by simp [engineStep, hf, issueCommand, he, raiseError, goto, setErr]⟩)
    | some w =>
      obtain ⟨m, n, h, h1, h2, -⟩ := startCommand_eq w s
      exact .inl ⟨rfl, w, m, n, rfl, by simp [engineStep, hf, issueCommand, he, h, goto], h1, h2⟩
  | poll =>
    refine .inr (.inr (.inr (.inr (.inr (.inr ?_)))))
    cases hi : s.idle with
    | true => exact .inl ⟨rfl, rfl, by simp [engineStep, hf, pollIdle, hi, goto, countPoll]⟩
    | false => exact .inr (.inl ⟨rfl, rfl, by simp [engineStep, hf, pollIdle, hi, goto, countPoll]⟩)
  | wait =>
    refine .inr (.inr (.inr (.inr (.inr (.inr (.inr (.inr ?_)))))))
    by_cases hp : s.polls = 50
    · exact .inl ⟨rfl, hp,
        by simp [engineStep, hf, waitInterval, budgetSpent, pollBudget, hp, raiseError, goto, setErr]⟩
    · exact .inr (.inl ⟨rfl, hp, by simp [engineStep, hf, waitInterval, budgetSpent, pollBudget, hp, goto]⟩)
  | capture =>
    refine .inr (.inr (.inr (.inr (.inr (.inr (.inr (.inr (.inr (.inr (.inl ⟨rfl, ?_⟩))))))))))
    cases ho : s.d.op <;> simp [engineStep, hf, captureData, ho, goto, setErr, setRdata]
  | release =>
    exact .inr (.inr (.inr (.inr (.inr (.inr (.inr (.inr (.inr (.inr (.inr
      ⟨rfl, by simp [engineStep, hf, releaseGuard, goto, freeGuard, respond]⟩))))))))))

/-! ## What each instruction answers -/

/-- What it means that instruction `i` answered `u` from `s`. -/
def Answers (i : Instr) (s u : State) : Prop :=
  match i with
  | .rd t r => s.life = .ready ∧ t.toNat < 32 ∧ r.toNat < 32 ∧
      u = engineStep { tgt := lowAddr t, reg := lowAddr r, op := .read, wdata := 0#16 } s
  | .wr t r v => s.life = .ready ∧ t.toNat < 32 ∧ r.toNat < 32 ∧
      u = engineStep { tgt := lowAddr t, reg := lowAddr r, op := .write, wdata := v } s
  | .ben => s.life = .ready ∧ u = respond s.cur (plainResponse .ok) (setMbe true s)
  | .bdis => s.life = .ready ∧
      u = respond s.cur (plainResponse .ok) (setSlot (markSlot s.slot) (setMbe false s))
  | .init f p => s.life = .uninit ∧ f ≠ 0#32 ∧
      ((divsel f = none ∧ u = respond s.cur (plainResponse .unsupportedClock) (setLife .failed s)) ∨
        ∃ x, divsel f = some x ∧ u = respond s.cur (plainResponse .ok) (bringUp x p s))
  | .c22Read t r | .c45Read t r => u = complete (completeRead t r) s
  | .c22Write t r v | .c45Write t r v => u = complete (completeWrite t r v) s
  | .div8 => u = programDivisor .div8 s
  | .div16 => u = programDivisor .div16 s
  | .div32 => u = programDivisor .div32 s
  | .div48 => u = programDivisor .div48 s
  | .div64 => u = programDivisor .div64 s
  | .div96 => u = programDivisor .div96 s

theorem exec_rd_eq {t r : BitVec 8} {s : State} (h : refusal (.rd t r) s.life = none) :
    exec (.rd t r) s =
      .next (engineStep { tgt := lowAddr t, reg := lowAddr r, op := .read, wdata := 0#16 } s) := by
  simp [exec, execRd, h]

theorem exec_wr_eq {t r : BitVec 8} {v : Half} {s : State} (h : refusal (.wr t r v) s.life = none) :
    exec (.wr t r v) s =
      .next (engineStep { tgt := lowAddr t, reg := lowAddr r, op := .write, wdata := v } s) := by
  simp [exec, execWr, h]

/-- What an instruction that answers a next state has done. -/
theorem exec_answers {i : Instr} {s u : State} (h : exec i s = .next u) : Answers i s u := by
  cases i with
  | rd t r =>
    cases hr : refusal (.rd t r) s.life with
    | some e => simp [exec, execRd, hr] at h
    | none =>
      rw [exec_rd_eq hr] at h; cases h
      obtain ⟨h1, h2, h3⟩ := refusal_rd_none.mp hr
      exact ⟨h1, h2, h3, rfl⟩
  | wr t r v =>
    cases hr : refusal (.wr t r v) s.life with
    | some e => simp [exec, execWr, hr] at h
    | none =>
      rw [exec_wr_eq hr] at h; cases h
      obtain ⟨h1, h2, h3⟩ := refusal_wr_none.mp hr
      exact ⟨h1, h2, h3, rfl⟩
  | ben =>
    cases hr : refusal .ben s.life with
    | some e => simp [exec, execBen, hr] at h
    | none => simp [exec, execBen, hr] at h; exact ⟨refusal_ben_none.mp hr, h.symm⟩
  | bdis =>
    cases hr : refusal .bdis s.life with
    | some e => simp [exec, execBdis, hr] at h
    | none => simp [exec, execBdis, hr] at h; exact ⟨refusal_bdis_none.mp hr, h.symm⟩
  | init f p =>
    cases hr : refusal (.init f p) s.life with
    | some e => simp [exec, execInit, hr] at h
    | none =>
      obtain ⟨h1, h2⟩ := refusal_init_none.mp hr
      cases hd : divsel f with
      | none => simp [exec, execInit, hr, hd] at h; exact ⟨h1, h2, .inl ⟨hd, h.symm⟩⟩
      | some x => simp [exec, execInit, hr, hd] at h; exact ⟨h1, h2, .inr ⟨x, hd, h.symm⟩⟩
  | c22Read t r => cases h; rfl
  | c22Write t r v => cases h; rfl
  | c45Read t r => cases h; rfl
  | c45Write t r v => cases h; rfl
  | div8 => cases h; rfl
  | div16 => cases h; rfl
  | div32 => cases h; rfl
  | div48 => cases h; rfl
  | div64 => cases h; rfl
  | div96 => cases h; rfl

/-- The latched transaction is executed whenever the block is READY. -/
theorem exec_latched (s u : State) (h : u.life = .ready) : ∃ d, exec (latched s) u = .next (engineStep d u) := by
  unfold latched
  split
  · exact ⟨_, exec_rd_eq (refusal_rd_none.mpr ⟨h, wideAddr_lt _, wideAddr_lt _⟩)⟩
  · exact ⟨_, exec_wr_eq (refusal_wr_none.mpr ⟨h, wideAddr_lt _, wideAddr_lt _⟩)⟩

/-- Everything an instruction can do when it answers a next state, with the whole next state. -/
theorem exec_cases {i : Instr} {s u : State} (h : exec i s = .next u) :
    (s.life = .ready ∧ ∃ d, u = engineStep d s ∧
      ((∃ t r, i = .rd t r ∧ t.toNat < 32 ∧ r.toNat < 32 ∧
          d = { tgt := lowAddr t, reg := lowAddr r, op := .read, wdata := 0#16 }) ∨
        ∃ t r v, i = .wr t r v ∧ t.toNat < 32 ∧ r.toNat < 32 ∧
          d = { tgt := lowAddr t, reg := lowAddr r, op := .write, wdata := v })) ∨
    (s.life = .ready ∧ i = .ben ∧
      u = { s with
            mbe := true, pend := tableErase s.pend s.cur,
            resp := tablePut s.resp s.cur (plainResponse .ok) }) ∨
    (s.life = .ready ∧ i = .bdis ∧
      u = { s with
            mbe := false, slot := markSlot s.slot, pend := tableErase s.pend s.cur,
            resp := tablePut s.resp s.cur (plainResponse .ok) }) ∨
    (s.life = .uninit ∧ ∃ f p, i = .init f p ∧
      ((divsel f = none ∧
          u = { s with
                life := .failed, pend := tableErase s.pend s.cur,
                resp := tablePut s.resp s.cur (plainResponse .unsupportedClock) }) ∨
        ∃ x, divsel f = some x ∧
          u = { s with
                life := .ready, proto := p, mbe := true, intEn := 0#32, intPend := 0#32, div := tierCode x,
                mdc := mdioClock s.pclk x, pend := tableErase s.pend s.cur,
                resp := tablePut s.resp s.cur (plainResponse .ok) })) ∨
    (u = s ∧ (s.slot = .empty ∨ s.mbe = false)) ∨
    (∃ w ov t r, ∃ v : Half, ∃ n, s.slot = .full w ov ∧ s.mbe = true ∧ (i = .c22Read t r ∨ i = .c45Read t r) ∧
      u = { s with cmd := setField s.codes.layout.data v s.cmd, idle := true, slot := .empty, draws := n }) ∨
    (∃ w ov t r v m n, s.slot = .full w ov ∧ s.mbe = true ∧ (i = .c22Write t r v ∨ i = .c45Write t r v) ∧
      (m = s.phy ∨ m = phyWrite s.phy t r v) ∧
      u = { s with phy := m, idle := true, slot := .empty, draws := n }) ∨
    (∃ x, encode s.codes.params i = .divisor (tierCode x) ∧
      u = { s with div := tierCode x, mdc := mdioClock s.pclk x }) := by
  have hread : ∀ t r : Addr, i = .c22Read t r ∨ i = .c45Read t r → u = complete (completeRead t r) s →
      (u = s ∧ (s.slot = .empty ∨ s.mbe = false)) ∨
      ∃ w ov t r, ∃ v : Half, ∃ n, s.slot = .full w ov ∧ s.mbe = true ∧ (i = .c22Read t r ∨ i = .c45Read t r) ∧
        u = { s with cmd := setField s.codes.layout.data v s.cmd, idle := true, slot := .empty, draws := n } := by
    intro t r hi hu
    rcases complete_cases (completeRead t r) s with ⟨he, hw⟩ | ⟨w, ov, hs, hm, he⟩
    · exact .inl ⟨hu.trans he, hw⟩
    · obtain ⟨v, n, hr, -⟩ := completeRead_eq t r ov s
      exact .inr ⟨w, ov, t, r, v, n, hs, hm, hi, hu.trans (he.trans hr)⟩
  have hwrite : ∀ (t r : Addr) (v : Half), i = .c22Write t r v ∨ i = .c45Write t r v →
      u = complete (completeWrite t r v) s →
      (u = s ∧ (s.slot = .empty ∨ s.mbe = false)) ∨
      ∃ w ov t r v m n, s.slot = .full w ov ∧ s.mbe = true ∧ (i = .c22Write t r v ∨ i = .c45Write t r v) ∧
        (m = s.phy ∨ m = phyWrite s.phy t r v) ∧
        u = { s with phy := m, idle := true, slot := .empty, draws := n } := by
    intro t r v hi hu
    rcases complete_cases (completeWrite t r v) s with ⟨he, hw⟩ | ⟨w, ov, hs, hm, he⟩
    · exact .inl ⟨hu.trans he, hw⟩
    · obtain ⟨m, n, hr, hf, ht⟩ := completeWrite_eq t r v ov s
      refine .inr ⟨w, ov, t, r, v, m, n, hs, hm, hi, ?_, hu.trans (he.trans hr)⟩
      cases ov with
      | false => exact .inr (hf rfl).1
      | true =>
        rw [(ht rfl).1]
        split
        · exact .inr rfl
        · exact .inl rfl
  have ha := exec_answers h
  cases i with
  | rd t r => exact .inl ⟨ha.1, _, ha.2.2.2, .inl ⟨t, r, rfl, ha.2.1, ha.2.2.1, rfl⟩⟩
  | wr t r v => exact .inl ⟨ha.1, _, ha.2.2.2, .inr ⟨t, r, v, rfl, ha.2.1, ha.2.2.1, rfl⟩⟩
  | ben => exact .inr (.inl ⟨ha.1, rfl, ha.2⟩)
  | bdis => exact .inr (.inr (.inl ⟨ha.1, rfl, ha.2⟩))
  | init f p =>
    exact .inr (.inr (.inr (.inl ⟨ha.1, f, p, rfl, ha.2.2⟩)))
  | c22Read t r => exact .inr (.inr (.inr (.inr ((hread t r (.inl rfl) ha).imp id .inl))))
  | c45Read t r => exact .inr (.inr (.inr (.inr ((hread t r (.inr rfl) ha).imp id .inl))))
  | c22Write t r v =>
    exact .inr (.inr (.inr (.inr ((hwrite t r v (.inl rfl) ha).imp id (fun x => .inr (.inl x))))))
  | c45Write t r v =>
    exact .inr (.inr (.inr (.inr ((hwrite t r v (.inr rfl) ha).imp id (fun x => .inr (.inl x))))))
  | div8 => exact .inr (.inr (.inr (.inr (.inr (.inr (.inr ⟨.div8, rfl, ha⟩))))))
  | div16 => exact .inr (.inr (.inr (.inr (.inr (.inr (.inr ⟨.div16, rfl, ha⟩))))))
  | div32 => exact .inr (.inr (.inr (.inr (.inr (.inr (.inr ⟨.div32, rfl, ha⟩))))))
  | div48 => exact .inr (.inr (.inr (.inr (.inr (.inr (.inr ⟨.div48, rfl, ha⟩))))))
  | div64 => exact .inr (.inr (.inr (.inr (.inr (.inr (.inr ⟨.div64, rfl, ha⟩))))))
  | div96 => exact .inr (.inr (.inr (.inr (.inr (.inr (.inr ⟨.div96, rfl, ha⟩))))))

end Sys2Proof.Machine
end

