-- ==== Sys2Proof/Laws/PerInstr.lean ====
section
/-!
SUPPORT. One law per instruction: the code space its encoding lies in and the fields that select it there
(`30_encoding.md` R81, R90, R91, R97).
-/

namespace Sys2Proof.Laws

/-- The encoding of an instruction, seen through its selecting fields: `req_op` of a request, the start field and the
operation code of a command word, the number of a divisor code. -/
def Encoding.Statement (i : Instr) : Prop :=
  ∀ p : Params, p.layout.Ok →
    match i with
    | .rd _ _ => ∃ q, encode p i = .request q ∧ q.op = 0#3
    | .wr _ _ _ => ∃ q, encode p i = .request q ∧ q.op = 1#3
    | .ben => ∃ q, encode p i = .request q ∧ q.op = 2#3
    | .bdis => ∃ q, encode p i = .request q ∧ q.op = 3#3
    | .init _ _ => ∃ q, encode p i = .request q ∧ q.op = 4#3
    | .c22Read _ _ => ∃ w, encode p i = .command w ∧
        getField p.layout.sof 2 w = p.sofC22 ∧ getField p.layout.op 2 w = p.opC22Read
    | .c22Write _ _ _ => ∃ w, encode p i = .command w ∧
        getField p.layout.sof 2 w = p.sofC22 ∧ getField p.layout.op 2 w = p.opC22Write
    | .c45Read _ _ => ∃ w, encode p i = .command w ∧
        getField p.layout.sof 2 w = p.sofC45 ∧ getField p.layout.op 2 w = p.opC45Read
    | .c45Write _ _ _ => ∃ w, encode p i = .command w ∧
        getField p.layout.sof 2 w = p.sofC45 ∧ getField p.layout.op 2 w = p.opC45Write
    | .div8 => encode p i = .divisor 0#3
    | .div16 => encode p i = .divisor 1#3
    | .div32 => encode p i = .divisor 2#3
    | .div48 => encode p i = .divisor 3#3
    | .div64 => encode p i = .divisor 4#3
    | .div96 => encode p i = .divisor 5#3

/-- A packed command word shows its start field and its operation code. -/
theorem packed_selects (p : Params) (hl : p.layout.Ok) (sof opc : BitVec 2) (t r : Addr) (v : Half) :
    getField p.layout.sof 2 (packCommand p sof opc t r v) = sof ∧
      getField p.layout.op 2 (packCommand p sof opc t r v) = opc :=
  ⟨(packCommand_fields p hl sof opc t r v).1, (packCommand_fields p hl sof opc t r v).2.1⟩

theorem Encoding.rd (t r : BitVec 8) : Encoding.Statement (.rd t r) := fun _ _ => ⟨_, rfl, rfl⟩

theorem Encoding.wr (t r : BitVec 8) (v : Half) : Encoding.Statement (.wr t r v) := fun _ _ => ⟨_, rfl, rfl⟩

theorem Encoding.ben : Encoding.Statement .ben := fun _ _ => ⟨_, rfl, rfl⟩

theorem Encoding.bdis : Encoding.Statement .bdis := fun _ _ => ⟨_, rfl, rfl⟩

theorem Encoding.init (f : BitVec 32) (c : BitVec 2) : Encoding.Statement (.init f c) := fun _ _ => ⟨_, rfl, rfl⟩

theorem Encoding.c22Read (t r : Addr) : Encoding.Statement (.c22Read t r) :=
  fun p hl => ⟨_, rfl, packed_selects p hl ..⟩

theorem Encoding.c22Write (t r : Addr) (v : Half) : Encoding.Statement (.c22Write t r v) :=
  fun p hl => ⟨_, rfl, packed_selects p hl ..⟩

theorem Encoding.c45Read (t r : Addr) : Encoding.Statement (.c45Read t r) :=
  fun p hl => ⟨_, rfl, packed_selects p hl ..⟩

theorem Encoding.c45Write (t r : Addr) (v : Half) : Encoding.Statement (.c45Write t r v) :=
  fun p hl => ⟨_, rfl, packed_selects p hl ..⟩

theorem Encoding.div8 : Encoding.Statement .div8 := fun _ _ => rfl

theorem Encoding.div16 : Encoding.Statement .div16 := fun _ _ => rfl

theorem Encoding.div32 : Encoding.Statement .div32 := fun _ _ => rfl

theorem Encoding.div48 : Encoding.Statement .div48 := fun _ _ => rfl

theorem Encoding.div64 : Encoding.Statement .div64 := fun _ _ => rfl

theorem Encoding.div96 : Encoding.Statement .div96 := fun _ _ => rfl

end Sys2Proof.Laws
end

