-- ==== Sys2Proof/Laws/Run.lean ====
section
/-!
SUPPORT. Runs of several steps, and the steps the engine takes on its own while a transaction is in flight.
-/

namespace Sys2Proof.Machine

/-! ## Runs -/

@[simp] theorem runSteps_zero (s : State) : runSteps 0 s = .next s := rfl

/-- A run by its first step. -/
theorem runSteps_succ (k : Nat) (s : State) :
    runSteps (k + 1) s =
      match step s with
      | .next t => runSteps k t
      | .fault e => .fault e
      | .refused e => .refused e := rfl

/-- A run whose first step answers a next state goes on from it. -/
theorem runSteps_step {s t : State} (h : step s = .next t) (k : Nat) : runSteps (k + 1) s = runSteps k t := by
  rw [runSteps_succ, h]

/-- Two runs one after the other. -/
theorem runSteps_add {s t : State} {k : Nat} (h : runSteps k s = .next t) (n : Nat) :
    runSteps (k + n) s = runSteps n t := by
  induction k generalizing s with
  | zero => cases h; rw [Nat.zero_add]
  | succ k ih =>
    rw [Nat.add_right_comm, runSteps_succ]
    rw [runSteps_succ] at h
    cases hs : step s with
    | next u => rw [hs] at h; exact ih h
    | fault e => rw [hs] at h; cases h
    | refused e => rw [hs] at h; cases h

/-! ## The engine by itself -/

/-- With no turn given, no lifecycle operation waiting and no completion of SIM due, the engine takes its next transition
(`70_reset_and_hazards.md` R231 (a)). -/
theorem step_engine {s : State} (hf : s.fsm ≠ .idle) (hl : s.life = .ready) (ha : s.agenda = [])
    (hw : waitingLifecycle s = []) (hc : simCompletes s = false) :
    ∃ d, step s = .next (engineStep d (serving s.owner s)) := by
  obtain ⟨d, hd⟩ := exec_latched s (serving s.owner s) hl
  refine ⟨d, ?_⟩
  simp [step, fetch, hc, ha, ownTurn, hw, hf, takeTurn, fetchEngine, hd]

/-- The engine's turn in `F_IDLE` acquires the guard for a waiting requester (`42_transaction_engine.md` R134). -/
theorem step_acquire {s : State} {q : Nat} {rest : List Turn} {req : Request} {i : Instr} (hf : s.fsm = .idle)
    (hl : s.life = .ready) (ha : s.agenda = .engine q :: rest) (hp : tableFind s.pend q = some req)
    (ht : isTransfer req = true) (hd : decodeRequest req = .instr i) (hi : i.WellFormed) :
    ∃ d : Desc, step s =
        .next { s with
          guard := .held, owner := q, d := d, polls := 0, fsm := .check, agenda := rest, cur := q } ∧
      ((∃ t r, i = .rd t r ∧ d = { tgt := lowAddr t, reg := lowAddr r, op := .read, wdata := 0#16 }) ∨
        ∃ t r v, i = .wr t r v ∧ d = { tgt := lowAddr t, reg := lowAddr r, op := .write, wdata := v }) := by
  have hc : simCompletes s = false := by simp [simCompletes, hf]
  rcases decodeRequest_cases req with ⟨h, h'⟩ | ⟨h, h'⟩ | ⟨h, h'⟩ | ⟨h, h'⟩ | ⟨h, h'⟩ | ⟨h, h'⟩ <;>
    rw [hd] at h' <;> cases h'
  · have he := exec_rd_eq (s := serving q (setAgenda rest s)) (refusal_rd_none.mpr ⟨hl, hi⟩)
    refine ⟨_, ?_, .inl ⟨_, _, rfl, rfl⟩⟩
    have hs : step s = exec (.rd req.tgt req.reg) (serving q (setAgenda rest s)) := by
      simp [step, fetch, hc, ha, takeTurn, fetchEngine, hf, hp, decode, hd]
    rw [hs, he]
    simp [engineStep, hf, acquire, goto, takeGuard, serving, setAgenda]
  · have he := exec_wr_eq (v := req.data) (s := serving q (setAgenda rest s)) (refusal_wr_none.mpr ⟨hl, hi⟩)
    refine ⟨_, ?_, .inr ⟨_, _, _, rfl, rfl⟩⟩
    have hs : step s = exec (.wr req.tgt req.reg req.data) (serving q (setAgenda rest s)) := by
      simp [step, fetch, hc, ha, takeTurn, fetchEngine, hf, hp, decode, hd]
    rw [hs, he]
    simp [engineStep, hf, acquire, goto, takeGuard, serving, setAgenda]
  all_goals simp [isTransfer, h] at ht

end Sys2Proof.Machine
end

