-- ==== Sys2Proof/Tests/Slice0.lean ====
section
/-!
SUPPORT. Tests on fixed values taken from the spec's own tables, and for every statement with hypotheses a witness that
meets them.
-/

namespace Sys2Proof.Tests

open Sys2Proof.Machine

/-! ## Well-formedness: one ill-formed term for each check -/

/-- `30_encoding.md` R93 (b). -/
theorem test_wf_target : ¬ (Instr.rd 32 0).WellFormed ∧ (Instr.rd 31 31).WellFormed := by decide

theorem test_wf_register : ¬ (Instr.wr 0 32 0).WellFormed ∧ ¬ (Instr.wr 255 0 0).WellFormed := by decide

/-- `30_encoding.md` R93 (e). -/
theorem test_wf_frequency : ¬ (Instr.init 0 0).WellFormed ∧ (Instr.init 1 3).WellFormed := by decide

/-! ## Decoding words written out from the spec's encodings -/

/-- `95_test_vectors.md` 2.3, first row. -/
theorem test_decode_c22Read : decode params (.command 0x528E0000#32) = .instr (.c22Read 5 3) := by decide

theorem test_decode_c22Write : decode params (.command 0x628EABCD#32) = .instr (.c22Write 5 3 0xABCD) := by decide

theorem test_decode_c45Read : decode params (.command 0x2FFE0000#32) = .instr (.c45Read 31 31) := by decide

theorem test_decode_c45Write : decode params (.command 0x30801111#32) = .instr (.c45Write 1 0 0x1111) := by decide

/-- `95_test_vectors.md` 2.3: three words that match no form. -/
theorem test_decode_reserved :
    decode params (.command 0x428E0000#32) = .reject (.reservedCommand 0x428E0000#32) ∧
    decode params (.command 0x928E0000#32) = .reject (.reservedCommand 0x928E0000#32) ∧
    decode params (.command 0x528EABCD#32) = .reject (.reservedCommand 0x528EABCD#32) := by decide

/-- `30_encoding.md` R81: the five operations and a reserved one. -/
theorem test_decode_requests :
    decode params (.request ⟨0b000, 5, 3, 0xFFFF, 7, 1⟩) = .instr (.rd 5 3) ∧
    decode params (.request ⟨0b001, 31, 0, 0x8000, 7, 1⟩) = .instr (.wr 31 0 0x8000) ∧
    decode params (.request ⟨0b010, 5, 3, 1, 7, 1⟩) = .instr .ben ∧
    decode params (.request ⟨0b011, 5, 3, 1, 7, 1⟩) = .instr .bdis ∧
    decode params (.request ⟨0b100, 5, 3, 1, 25000000, 2⟩) = .instr (.init 25000000 2) ∧
    decode params (.request ⟨0b101, 0, 0, 0, 0, 0⟩) = .reject (.reservedOperation 0b101) := by decide

/-- `30_encoding.md` R91. -/
theorem test_decode_divisors :
    decode params (.divisor 0b000) = .instr .div8 ∧ decode params (.divisor 0b001) = .instr .div16 ∧
    decode params (.divisor 0b010) = .instr .div32 ∧ decode params (.divisor 0b011) = .instr .div48 ∧
    decode params (.divisor 0b100) = .instr .div64 ∧ decode params (.divisor 0b101) = .instr .div96 ∧
    decode params (.divisor 0b110) = .reject (.reservedDivisor 0b110) := by decide

/-- The opcode table's numbering: a request, a command word, the one divisor code no request has. -/
theorem test_tableWords :
    decodeTableWord 8 0 = some (.rd 0 0) ∧ decodeTableWord 32 0x528C0000 = some (.c22Read 5 3) ∧
    decodeTableWord 8 5 = some .div96 ∧ decodeTableWord 8 6 = none := by decide

/-! ## ENCODE and DIVSEL -/

/-- The parameters with the recommended `TA_CODE` of `95_test_vectors.md`. -/
def params2 : Params := { params with taCode := 0b10 }

/-- `95_test_vectors.md` 2.2, the column for `TA_CODE = 0b10`, one row a form. -/
theorem test_encode_vectors :
    encodeTransaction params2 0 .read 5 3 0xFFFF = some 0x528E0000#32 ∧
    encodeTransaction params2 0 .write 5 3 0xABCD = some 0x628EABCD#32 ∧
    encodeTransaction params2 1 .read 31 31 0 = some 0x2FFE0000#32 ∧
    encodeTransaction params2 1 .write 7 1 0x1234 = some 0x33861234#32 := by decide

/-- `95_test_vectors.md` 2.2, the errors. -/
theorem test_encode_errors :
    encodeTransaction params2 2 .read 5 3 0 = none ∧ encodeTransaction params2 3 .write 0 0 0xFFFF = none := by
  decide

/-- `95_test_vectors.md` 2.1: the bounds and the values next to them. -/
theorem test_divsel_vectors :
    divsel 1 = some .div8 ∧ divsel 20000000 = some .div8 ∧ divsel 20000001 = some .div16 ∧
    divsel 40000000 = some .div16 ∧ divsel 40000001 = some .div32 ∧ divsel 80000000 = some .div32 ∧
    divsel 80000001 = some .div48 ∧ divsel 100000000 = some .div48 ∧ divsel 120000000 = some .div48 ∧
    divsel 120000001 = some .div64 ∧ divsel 160000000 = some .div64 ∧ divsel 160000001 = some .div96 ∧
    divsel 240000000 = some .div96 ∧ divsel 240000001 = none ∧ divsel 4294967295 = none := by decide

/-- `95_test_vectors.md` 2.1, the column `mdc`. -/
theorem test_mdc_vectors :
    mdioClock 100000000 .div48 = 2083333 ∧ mdioClock 80000001 .div48 = 1666666 ∧ mdioClock 1 .div8 = 0 := by decide

/-- `60_exceptions.md` R180: the numbers of the statuses. -/
theorem test_statusCodes :
    [Status.ok, .unsupportedProtocol, .unsupportedClock, .timeout].map statusCode = [0, 1, 2, 3] := by decide

/-! ## Steps -/

/-- A field of the next state, if there is one. -/
def answered {α : Type} (o : Host.Outcome State Fault Refusal) (f : State → α) : Option α :=
  match o with
  | .next s => some (f s)
  | .fault _ => none
  | .refused _ => none

/-- The block READY with nothing pending. -/
def readyState : State := { State.reset with life := .ready }

/-- The block with requester 0's READ of 5, 3 in flight in the FSM state `f`. -/
def flying (f : Fsm) : State :=
  { readyState with
    guard := .held, fsm := f, pend := [(0, ⟨0, 5, 3, 0, 0, 0⟩)],
    d := { tgt := 5, reg := 3, op := .read, wdata := 0 } }

/-- The block with the command word `w` in the controller's slot. -/
def slotted (w : Word) (ov : Bool) : State :=
  { readyState with mbe := true, idle := false, cmd := w, slot := .full w ov }

/-- `42_transaction_engine.md` R134: the table word of READ 5, 3 acquires the guard. -/
theorem test_rd_acquires :
    answered (step (State.reset.withFetchWord 72 (5 * 2 ^ 3 + 3 * 2 ^ 11))) (fun s => (s.guard, s.fsm, s.d)) =
      some (.held, .check, ⟨5, 3, .read, 0⟩) := by decide

/-- `42_transaction_engine.md` R134: WRITE loads the data. -/
theorem test_wr_acquires :
    answered (step (State.reset.withFetchWord 72 (1 + 31 * 2 ^ 3 + 0 * 2 ^ 11 + 0xABCD * 2 ^ 19)))
      (fun s => (s.fsm, s.d, s.polls)) = some (.check, ⟨31, 0, .write, 0xABCD⟩, 0) := by decide

/-- `95_test_vectors.md` 2.4, last row: after the fiftieth interval, `Timeout`. -/
theorem test_rd_times_out :
    answered (exec (.rd 5 3) { flying .wait with polls := 50 }) (fun s => (s.err, s.fsm)) =
      some (.timeout, .release) := by decide

/-- `95_test_vectors.md` 2.4: after the forty-ninth interval another poll. -/
theorem test_wr_polls_again :
    answered (exec (.wr 5 3 0) { flying .wait with polls := 49 }) (fun s => (s.err, s.fsm)) =
      some (.ok, .poll) := by decide

/-- `43_lifecycle.md` R166. -/
theorem test_ben :
    answered (step (State.reset.withFetchWord 8 2)) (fun s => (s.mbe, s.pend, s.resp)) =
      some (true, [], [(0, ⟨.ok, none⟩)]) := by decide

/-- `43_lifecycle.md` R167, `20_memory.md` R72: the command in the slot becomes overlapped. -/
theorem test_bdis :
    answered (exec .bdis (slotted 0x528E0000 false)) (fun s => (s.mbe, s.slot)) =
      some (false, .full 0x528E0000 true) := by decide

/-- `43_lifecycle.md` R161 with the example of `40_clock_divisor.md` R102. -/
theorem test_init :
    answered (step (State.reset.withFetchWord 72 (4 + 100000000 * 2 ^ 35 + 1 * 2 ^ 67)))
      (fun s => (s.life, s.proto, s.div, s.mbe, s.intEn)) = some (.ready, 1, 0b011, true, 0) := by decide

/-- `43_lifecycle.md` R162 at the first unsupported frequency of `95_test_vectors.md` 2.1. -/
theorem test_init_unsupported :
    answered (exec (.init 240000001 0) { State.reset with proto := 2 }) (fun s => (s.life, s.proto, s.mbe, s.resp)) =
      some (.failed, 2, false, [(0, ⟨.unsupportedClock, none⟩)]) := by decide

/-- `95_test_vectors.md` 2.3: what CMD holds after a completed READ of 0xABCD. -/
theorem test_c22Read :
    answered (exec (.c22Read 5 3) { slotted 0x528E0000 false with env := .sim, phy := phyWrite [] 5 3 0xABCD })
      (fun s => (s.cmd, s.idle, s.slot)) = some (0x528EABCD, true, .empty) := by decide

/-- `20_memory.md` R67, and R68 with the bus disabled. -/
theorem test_c22Write :
    answered (step (State.reset.withFetchWord 32 0x628EABCD)) (fun s => (phyRead s.phy 5 3, s.cmd, s.slot)) =
      some (0xABCD, 0x628EABCD, .empty) ∧
    answered (exec (.c22Write 5 3 0xABCD) { slotted 0x628EABCD true with mbe := false }) (fun s => (s.phy, s.idle)) =
      some ([], false) := by decide

/-- Codes other than the defaults, with every field elsewhere in the word, that meet `00_scope.md` R8. -/
def otherCodes : Codes :=
  { sofC22 := 2, sofC45 := 3, opC22Read := 0, opC22Write := 3, opC45Read := 1, opC45Write := 0,
    layout := { sof := 0, op := 2, tgt := 4, reg := 9, ta := 14, data := 16 } }

/-- `30_encoding.md` R86: the machine takes the codes as configuration.  A Clause 22 read word of `otherCodes` is executed in
a machine with those codes, and the word of the default codes is none there. -/
theorem test_other_codes :
    otherCodes.Ok ∧
    answered (step { slotted 0x00000652 false with
        codes := otherCodes, env := .sim, phy := phyWrite [] 5 3 0xABCD, agenda := [.controller] })
      (fun s => (s.cmd, s.idle, s.slot)) = some (0xABCD0652, true, .empty) ∧
    decode otherCodes.params (.command 0x528E0000) = .reject (.reservedCommand 0x528E0000) := by decide

/-- `20_memory.md` R67 at the last location. -/
theorem test_c45Read :
    answered (exec (.c45Read 31 31) { slotted 0x2FFE0000 false with env := .sim, phy := phyWrite [] 31 31 0x8001 })
      (fun s => (s.cmd, s.idle)) = some (0x2FFE8001, true) := by decide

theorem test_c45Write :
    answered (step (State.reset.withFetchWord 32 0x30801111)) (fun s => (phyRead s.phy 1 0, s.idle)) =
      some (0x1111, true) := by decide

/-- `40_clock_divisor.md` R101: the six divisors, at 96 MHz. -/
theorem test_divisors :
    answered (exec .div8 { readyState with pclk := 96000000 }) (fun s => (s.div, s.mdc)) = some (0, 12000000) ∧
    answered (exec .div16 { readyState with pclk := 96000000 }) (fun s => (s.div, s.mdc)) = some (1, 6000000) ∧
    answered (exec .div32 { readyState with pclk := 96000000 }) (fun s => (s.div, s.mdc)) = some (2, 3000000) ∧
    answered (exec .div48 { readyState with pclk := 96000000 }) (fun s => (s.div, s.mdc)) = some (3, 2000000) ∧
    answered (exec .div64 { readyState with pclk := 96000000 }) (fun s => (s.div, s.mdc)) = some (4, 1500000) ∧
    answered (exec .div96 { readyState with pclk := 96000000 }) (fun s => (s.div, s.mdc)) = some (5, 1000000) := by
  decide

/-- The table word of DIV96 is run by the clock generator. -/
theorem test_div96_fetched :
    answered (step (State.reset.withFetchWord 8 5)) (fun s => (s.div, s.life)) = some (5, .ready) := by decide

/-- `70_reset_and_hazards.md` R211: from reset, with nothing submitted, nothing moves. -/
theorem test_reset_rests : answered (step State.reset) id = some State.reset := by decide

/-! ## Witnesses: states and operands that meet the hypotheses of each statement -/

/-- DecodeOfEncode, ReservedCodesRejected, FormsMatchMasks, WrittenOutCodesDecode: parameters that meet R8, at the default
positions, with the default codes. -/
theorem witness_params : params2.Ok ∧ params2.layout = defaultLayout ∧ params2.toCodes = defaultCodes := by decide

/-- EncodeOfDecode: a code of each space that decodes, the divisor code at its largest. -/
theorem witness_EncodeOfDecode :
    decode params2 (.command 0x528C0000) = .instr (.c22Read 5 3) ∧
    decode params2 (.request ⟨0, 5, 3, 9, 9, 3⟩) = .instr (.rd 5 3) ∧
    decode params2 (.divisor 5) = .instr .div96 := by decide

/-- EncodeFailsOnUnrecognisedProtocol, second clause. -/
theorem witness_EncodeFails : (flying .issue).ProtoInv ∧ (flying .issue).fsm = .issue :=
  ⟨fun _ => rfl, rfl⟩

/-- ReadWordIgnoresData: both recognised codes. -/
theorem witness_ReadWordIgnoresData : recognised 0 = true ∧ recognised 1 = true := by decide

/-- EncodedWordsAreTheFourForms: a transaction with a word, and a word that decodes and carries TA_CODE. -/
theorem witness_EncodedWords :
    encodeTransaction params2 1 .write 31 31 0xFFFF = some 0x3FFEFFFF#32 ∧
    decodeCommand params2 0x3FFEFFFF = .instr (.c45Write 31 31 0xFFFF) ∧
    getField 16 2 0x3FFEFFFF#32 = params2.taCode := by decide

/-- DivselBoundsTheClock, monotonicity and the bounds: two frequencies that are covered, next to each other across a
bound. -/
theorem witness_DivselBoundsTheClock :
    (20000000#32).toNat ≤ (20000001#32).toNat ∧ divsel 20000000 = some .div8 ∧ divsel 20000001 = some .div16 ∧
    Tier.div16 ≠ .div8 := by decide

/-- InitialiseSucceeds: the smallest and the largest supported frequency. -/
theorem witness_InitialiseSucceeds :
    State.reset.life = .uninit ∧ 1#32 ≠ 0#32 ∧ (1#32).toNat ≤ 240000000 ∧ 240000000#32 ≠ 0#32 ∧
    (240000000#32).toNat ≤ 240000000 := by decide

/-- InitialiseUnsupportedClock: each clause at its bound, and the largest operand. -/
theorem witness_InitialiseUnsupportedClock :
    State.reset.life = .uninit ∧ 240000001#32 ≠ 0#32 ∧ 240000000 < (240000001#32).toNat ∧
    240000000 < (4294967295#32).toNat ∧ 240000000#32 ≠ 0#32 ∧ (240000000#32).toNat ≤ 240000000 := by decide

/-- WrongLifeRefused: every value of LIFE meets one of the two clauses' hypotheses. -/
theorem witness_WrongLifeRefused :
    State.reset.life ≠ .ready ∧ { State.reset with life := .failed }.life ≠ .ready ∧ readyState.life ≠ .uninit ∧
    { State.reset with life := .failed }.life ≠ .uninit := by decide

/-- IllFormedOperandsRefused: the first address and the largest, in either operand. -/
theorem witness_IllFormedOperandsRefused :
    readyState.life = .ready ∧ (32 ≤ (32#8).toNat ∨ 32 ≤ (0#8).toNat) ∧ (32 ≤ (31#8).toNat ∨ 32 ≤ (255#8).toNat) ∧
    State.reset.life = .uninit := by decide

/-- BusEnableSetsTheBit: the request, and MBE already set. -/
theorem witness_BusEnable :
    (bareRequest 2).op = 2#3 ∧ readyState.life = .ready ∧ { readyState with mbe := true }.mbe = true := by decide

/-- BusDisableMarksTheSlot: the slot empty, full and not overlapped, full and overlapped. -/
theorem witness_BusDisable :
    readyState.life = .ready ∧ readyState.slot = .empty ∧ (slotted 0x528E0000 false).life = .ready ∧
    (slotted 0x528E0000 false).slot = .full 0x528E0000 false ∧
    (slotted 0x528E0000 true).slot = .full 0x528E0000 true := by decide

/-- LifecycleFrame: each of the three operations answers a next state. -/
theorem witness_LifecycleFrame :
    (∃ t, exec .ben readyState = .next t) ∧ (∃ t, exec .bdis (slotted 0x528E0000 false) = .next t) ∧
    (∃ t, exec (.init 1 0) State.reset = .next t) ∧ ∃ t, exec (.init 240000001 0) State.reset = .next t :=
  ⟨⟨_, rfl⟩, ⟨_, rfl⟩, ⟨_, rfl⟩, ⟨_, rfl⟩⟩

/-- InitialisedClockIsBounded: the true clock equal to the operand, at the last supported frequency. -/
theorem witness_InitialisedClock :
    { State.reset with pclk := 240000000 }.life = .uninit ∧
    ∃ t, exec (.init 240000000 0) { State.reset with pclk := 240000000 } = .next t ∧ t.life = .ready ∧
      { State.reset with pclk := 240000000 }.pclk.toNat ≤ (240000000#32).toNat :=
  ⟨rfl, _, rfl, rfl, Nat.le_refl _⟩

/-- The statements about one transition of the engine: READY, the addresses at both ends, and each FSM state. -/
theorem witness_transitions (f : Fsm) :
    (flying f).life = .ready ∧ (0#8).toNat < 32 ∧ (31#8).toNat < 32 ∧ (flying f).fsm = f :=
  ⟨rfl, by decide, by decide, rfl⟩

/-- AcquireTakesTheGuard. -/
theorem witness_Acquire : readyState.life = .ready ∧ readyState.fsm = .idle ∧ (31#8).toNat < 32 := by decide

/-- CheckTestsTheProtocol: the four codes. -/
theorem witness_Check :
    { flying .check with proto := 2 }.proto = 0b10#2 ∧ { flying .check with proto := 3 }.proto = 0b11#2 ∧
    { flying .check with proto := 0 }.proto = 0b00#2 ∧ { flying .check with proto := 1 }.proto = 0b01#2 := by decide

/-- EnableSetsTheBit, second clause: a READ that answers a next state with MBE 1. -/
theorem witness_Enable :
    { flying .poll with mbe := true }.mbe = true ∧ ∃ u, exec (.rd 5 3) { flying .poll with mbe := true } = .next u :=
  ⟨rfl, _, rfl⟩

/-- IssueStartsTheCommand. -/
theorem witness_Issue :
    (flying .issue).life = .ready ∧ (flying .issue).fsm = .issue ∧ recognised (flying .issue).proto = true ∧
    (flying .issue).slot = .empty := by decide

/-- IssueOverFullSlotOverlaps: a Write in the slot, and a Read. -/
theorem witness_IssueOver :
    slotFull { flying .issue with slot := .full 0x628EABCD false }.slot = true ∧
    slotWrite defaultCodes { flying .issue with slot := .full 0x628EABCD false }.slot = some (5, 3, 0xABCD) ∧
    slotWrite defaultCodes { flying .issue with slot := .full 0x528E0000 true }.slot = none ∧
    recognised (flying .issue).proto = true := by decide

/-- PollReadsIdleOnce: idle and not. -/
theorem witness_Poll :
    (flying .poll).idle = true ∧ { flying .poll with idle := false }.idle = false ∧ (flying .poll).fsm = .poll := by
  decide

/-- WaitEndsAtTheBudget: 50 and 49. -/
theorem witness_Wait :
    { flying .wait with polls := 50 }.polls = 50 ∧ { flying .wait with polls := 49 }.polls ≠ 50 := by decide

/-- CaptureTakesTheDataField: both directions, and the default positions. -/
theorem witness_Capture :
    (flying .capture).codes.layout = defaultLayout ∧
    (flying .capture).d.op = .read ∧ { flying .capture with d := ⟨5, 3, .write, 1⟩ }.d.op = .write := by decide

/-- ReleaseAnswersTheOwner: the three forms of the response. -/
theorem witness_Release :
    ((flying .release).err = .ok ∧ (flying .release).d.op = .read) ∧
    ({ flying .release with d := ⟨5, 3, .write, 1⟩ }.err = .ok ∧
      { flying .release with d := ⟨5, 3, .write, 1⟩ }.d.op = .write) ∧
    { flying .release with err := .timeout }.err ≠ .ok := by decide

/-- TransferFrame: a READ answers a next state from every FSM state. -/
theorem witness_TransferFrame (f : Fsm) : ∃ u, exec (.rd 5 3) (flying f) = .next u := ⟨_, rfl⟩

/-- A location in the slot's Write, for TransferFrame's last clause, at the first and the last location. -/
theorem witness_slotWrite :
    slotWrite defaultCodes (.full 0x60020000 false) = some (0, 0, 0) ∧ slotWrite defaultCodes (.full 0x3FFEFFFF false) = some (31, 31, 0xFFFF) := by
  decide

/-- CompletionPerformsTheCommand: the general environment and another. -/
theorem witness_Completion :
    (slotted 0x528E0000 false).mbe = true ∧ (slotted 0x528E0000 false).slot = .full 0x528E0000 false ∧
    (slotted 0x528E0000 false).env = .general ∧ { slotted 0x528E0000 false with env := .sim }.env ≠ .general := by
  decide

/-- OverlappedCompletionIsFree. -/
theorem witness_Overlapped :
    (slotted 0x528E0000 true).mbe = true ∧ (slotted 0x528E0000 true).slot = .full 0x528E0000 true := by decide

/-- CompletionWaitsForTheBus: each reason to wait. -/
theorem witness_CompletionWaits :
    { slotted 0x528E0000 true with mbe := false }.mbe = false ∧ readyState.slot = .empty := by decide

/-- CommandFrame: each form answers a next state, under a layout of fields that lie apart, the default one. -/
theorem witness_CommandFrame :
    ((slotted 0x528E0000 false).codes.layout.Ok ∧ (slotted 0x528E0000 false).codes.layout = defaultLayout) ∧
    (∃ u, exec (.c22Read 5 3) (slotted 0x528E0000 false) = .next u) ∧
    (∃ u, exec (.c45Read 5 3) (slotted 0x528E0000 true) = .next u) ∧
    (∃ u, exec (.c22Write 5 3 0xABCD) (slotted 0x628EABCD false) = .next u) ∧
    ∃ u, exec (.c45Write 5 3 0xABCD) (slotted 0x628EABCD true) = .next u :=
  ⟨⟨defaultLayout_ok, rfl⟩, ⟨_, rfl⟩, ⟨_, rfl⟩, ⟨_, rfl⟩, ⟨_, rfl⟩⟩

/-- EveryResetStateMeetsTheInvariant: a reset state with the unspecified entries other than the model's. -/
theorem witness_IsReset :
    { State.reset with proto := 3, polls := 50, cmd := 0xFFFFFFFF, div := 7, err := .timeout }.IsReset ∧
    { State.reset with proto := 3, polls := 50, cmd := 0xFFFFFFFF, div := 7, err := .timeout }.codes.Ok ∧
    { State.reset with proto := 3, polls := 50, cmd := 0xFFFFFFFF, div := 7, err := .timeout }.IntInv ∧
    Memory.wf { State.reset with proto := 3, polls := 50, cmd := 0xFFFFFFFF, div := 7, err := .timeout }.phy :=
  ⟨⟨rfl, rfl, rfl, fun _ => rfl, fun _ => rfl, rfl, rfl, rfl⟩, defaultCodes_ok, ⟨BitVec.zero_and, BitVec.zero_and⟩,
    List.Pairwise.nil, fun _ h => nomatch h⟩

/-- StepKeepsTheInvariant: a READ in flight in `F_CHECK` meets the whole invariant and its step answers a next state. -/
theorem witness_StepKeepsTheInvariant : (flying .check).Inv ∧ ∃ t, step (flying .check) = .next t := by
  refine ⟨⟨defaultCodes_ok, by simp [State.GuardInv, flying], ?_, ?_, rfl, ?_, ?_, ?_, ?_, ?_, ?_, ?_, ?_, ?_, ?_⟩, _, rfl⟩
  · exact ⟨by simp [flying, readyState, State.reset, slotFull], by simp [flying, readyState, State.reset]⟩
  · simp [State.SlotWordInv, flying, readyState, State.reset]
  · simp [State.LifeInv, flying, readyState]
  · exact fun _ => ⟨rfl, .div8, rfl, by simp [flying, readyState, State.reset, mdioClock]⟩
  · exact ⟨List.pairwise_singleton _ _, List.Pairwise.nil, fun q => .inr rfl⟩
  · intro q req h
    simp only [flying, tableFind] at h
    split at h
    · cases h
      exact ⟨.rd 5 3, by decide, by decide⟩
    · cases h
  · exact fun _ => ⟨⟨0, 5, 3, 0, 0, 0⟩, rfl, by decide⟩
  · simp [State.ProtoInv, flying]
  · simp [State.ErrInv, flying]
  · exact ⟨BitVec.zero_and, BitVec.zero_and⟩
  · exact fun h => nomatch h
  · exact ⟨List.Pairwise.nil, fun _ h => nomatch h⟩

/-- FsmTransitionsAreTheTable, EngineStepsRunOut: an engine step from a state with the two invariants, in flight. -/
theorem witness_engineSteps :
    (flying .check).ProtoInv ∧ (flying .check).PollsInv ∧ (flying .check).fsm ≠ .idle ∧ (flying .check).life = .ready ∧
    ∃ t, step (flying .check) = .next t :=
  ⟨by simp [State.ProtoInv, flying], rfl, by decide, rfl, _, rfl⟩

/-- The same at the poll that is the last one. -/
theorem witness_lastPoll :
    { flying .wait with polls := 50 }.PollsInv ∧ { flying .poll with polls := 49 }.PollsInv := by
  simp [State.PollsInv, flying, pollBudget]

/-- TransactionAlwaysEnds. -/
theorem witness_TransactionAlwaysEnds :
    (flying .check).PollsInv ∧ (flying .check).fsm ≠ .idle ∧ (flying .check).life = .ready ∧
    (flying .check).env ≠ .sim ∧ (flying .check).agenda = [] ∧ waitingLifecycle (flying .check) = [] :=
  ⟨rfl, by decide, rfl, by decide, rfl, rfl⟩

/-- A block about to serve requester 0's WRITE of 0xABCD to 5, 3, in the environment `e`. -/
def aboutToWrite (e : Env) : State :=
  { readyState with env := e, agenda := [.engine 0], pend := [(0, ⟨1, 5, 3, 0xABCD, 0, 0⟩)] }

/-- StuckControllerTimesOutAfterFifty (SIM-STUCK); SimWriteReachesThePhy and SimRoundTrip (SIM). -/
theorem witness_aboutToWrite :
    (aboutToWrite .simStuck).AboutToServe 0 (.wr 5 3 0xABCD) ∧ (aboutToWrite .sim).AboutToServe 0 (.wr 5 3 0xABCD) ∧
    (aboutToWrite .sim).codes.Ok ∧ recognised (aboutToWrite .sim).proto = true ∧
    (aboutToWrite .sim).slot = .empty ∧ 0 < Config.nReq :=
  ⟨⟨rfl, rfl, rfl, rfl, by decide, _, rfl, rfl, by decide⟩, ⟨rfl, rfl, rfl, rfl, by decide, _, rfl, rfl, by decide⟩,
    defaultCodes_ok, rfl, rfl, Nat.succ_pos _⟩

/-- SimRoundTrip, the clauses about what runs after the WRITE: one other requester's turn, and the READ at its
release step and about to be served, in SIM with no WRITE to the location in flight. -/
theorem witness_SimRoundTrip :
    ((∃ w, runSteps 1 { readyState with env := .sim, agenda := [.takeResponse 1] } = .next w) ∧
      NoWriteDuring 5 3 1 { readyState with env := .sim, agenda := [.takeResponse 1] }) ∧
    ({ flying .release with env := .sim }.fsm = .release ∧ (flying .release).d.op = .read ∧
      (flying .release).d.tgt = lowAddr 5 ∧ (flying .release).d.reg = lowAddr 3 ∧
      ∃ x, step { flying .release with env := .sim } = .next x ∧ x.fsm = .idle) ∧
    { readyState with env := .sim, agenda := [.engine 1], pend := [(1, ⟨0, 5, 3, 0, 0, 0⟩)] }.AboutToServe 1 (.rd 5 3) :=
  ⟨⟨⟨_, rfl⟩, fun h => h.1 rfl, fun u hu => by cases hu; exact fun h => h.1 rfl⟩, ⟨rfl, rfl, by decide, by decide, _, rfl, rfl⟩,
    rfl, rfl, rfl, rfl, by decide, _, rfl, rfl, by decide⟩

/-- SimReadReturnsTheLocation: a READ at the last location. -/
theorem witness_SimRead :
    let s := { readyState with env := .sim, agenda := [.engine 0], pend := [(0, ⟨0, 31, 31, 0, 0, 0⟩)] }
    s.AboutToServe 0 (.rd 31 31) ∧ s.env = .sim ∧ s.codes.Ok ∧ recognised s.proto = true ∧ s.slot = .empty :=
  ⟨⟨rfl, rfl, rfl, rfl, by decide, _, rfl, rfl, by decide⟩, rfl, defaultCodes_ok, rfl, rfl⟩

/-- UnrecognisedProtocolTouchesNothing: the protocol codes 2 and 3. -/
theorem witness_Unrecognised (p : BitVec 2) (h : p = 2 ∨ p = 3) :
    { aboutToWrite .general with proto := p }.AboutToServe 0 (.wr 5 3 0xABCD) ∧
      recognised { aboutToWrite .general with proto := p }.proto = false :=
  ⟨⟨rfl, rfl, rfl, rfl, by decide, _, rfl, rfl, by decide⟩, by rcases h with rfl | rfl <;> decide⟩

/-- The four invariants stated one by one, each met in a state whose step answers a next state. -/
theorem witness_invariants :
    (flying .release).GuardInv ∧ (slotted 0x528E0000 false).SlotInv ∧ (flying .release).MailInv ∧
    Memory.wf (phyWrite [] 31 31 0xABCD) ∧ (∃ t, step (flying .release) = .next t) ∧
    ∃ t, step { slotted 0x528E0000 false with agenda := [.controller] } = .next t := by
  refine ⟨by simp [State.GuardInv, flying], ⟨?_, ?_⟩, ?_, by decide, ⟨_, rfl⟩, ?_⟩
  · simp [slotted, slotFull]
  · simp [slotted]
  · exact ⟨List.pairwise_singleton _ _, List.Pairwise.nil, fun q => .inr rfl⟩
  · exact ⟨_, rfl⟩

/-- A block whose lifecycle controller is about to serve requester 0's INITIALIZE at `f`. -/
def aboutToInit (f : BitVec 32) : State :=
  { State.reset with agenda := [.lifecycle 0], pend := [(0, ⟨4, 0, 0, 0, f, 1⟩)] }

/-- LifeChangesOnlyByInitialise: a step that makes the block READY, and one that makes it FAILED. -/
theorem witness_LifeChanges :
    answered (step (aboutToInit 240000000)) State.life = some .ready ∧
    answered (step (aboutToInit 240000001)) State.life = some .failed := by decide

/-- ConfigurationFixedOnceReady, GuardHeldUntilRelease, PendingRequestIsAnsweredOrKept. -/
theorem witness_readyStep :
    (flying .release).life = .ready ∧ (flying .release).GuardInv ∧ (flying .release).guard = .held ∧
    tableFind (flying .release).pend 0 = some ⟨0, 5, 3, 0, 0, 0⟩ ∧ ∃ t, step (flying .release) = .next t :=
  ⟨rfl, by simp [State.GuardInv, flying], rfl, rfl, _, rfl⟩

/-- InterruptsWrittenOnlyByInitialise: an instruction that is not INIT, and INIT. -/
theorem witness_Interrupts :
    (∃ t, exec .ben readyState = .next t) ∧ (∀ f p, Instr.ben ≠ .init f p) ∧
    ∃ t, exec (.init 1 0) State.reset = .next t :=
  ⟨⟨_, rfl⟩, by simp, _, rfl⟩

/-- A block in SIM with requester 0's READ in flight and requester 1's BUS_DISABLE pending. -/
def disabling : State :=
  { flying .check with
    env := .sim, agenda := [.lifecycle 1], pend := [(0, ⟨0, 5, 3, 0, 0, 0⟩), (1, ⟨3, 0, 0, 0, 0, 0⟩)] }

/-- `20_memory.md` R75 (c): in SIM no BUS_DISABLE is issued while a transaction is in flight; it is in the general
environment. -/
theorem test_sim_disable :
    step disabling = .refused .disableInFlight ∧
    answered (step { disabling with env := .general }) (fun s => (s.mbe, tableFind s.resp 1)) =
      some (false, some ⟨.ok, none⟩) := ⟨rfl, by decide⟩

/-- StepRunsTheFetchedInstruction: the hypotheses of its six clauses. -/
theorem witness_StepRuns :
    (simCompletes (aboutToWrite .general) = false ∧ (aboutToWrite .general).agenda = .engine 0 :: [] ∧
      (aboutToWrite .general).fsm = .idle ∧ tableFind (aboutToWrite .general).pend 0 = some ⟨1, 5, 3, 0xABCD, 0, 0⟩ ∧
      decode readyState.codes.params (.request ⟨1, 5, 3, 0xABCD, 0, 0⟩) = .instr (.wr 5 3 0xABCD) ∧
      isTransfer ⟨1, 5, 3, 0xABCD, 0, 0⟩ = true) ∧
    (simCompletes { flying .poll with agenda := [.engine 7] } = false ∧
      { flying .poll with agenda := [.engine 7] }.agenda = .engine 7 :: [] ∧
      { flying .poll with agenda := [.engine 7] }.fsm ≠ .idle) ∧
    (simCompletes (aboutToInit 1) = false ∧ (aboutToInit 1).agenda = .lifecycle 0 :: [] ∧
      tableFind (aboutToInit 1).pend 0 = some ⟨4, 0, 0, 0, 1, 1⟩ ∧
      decode readyState.codes.params (.request ⟨4, 0, 0, 0, 1, 1⟩) = .instr (.init 1 1) ∧ isLifecycle ⟨4, 0, 0, 0, 1, 1⟩ = true ∧
      ¬ (Instr.init 1 1 = .bdis ∧ (aboutToInit 1).env = .sim ∧ (aboutToInit 1).fsm ≠ .idle)) ∧
    (simCompletes disabling = false ∧ disabling.agenda = .lifecycle 1 :: [] ∧
      tableFind disabling.pend 1 = some ⟨3, 0, 0, 0, 0, 0⟩ ∧
      decode readyState.codes.params (.request ⟨3, 0, 0, 0, 0, 0⟩) = .instr .bdis ∧ disabling.env = .sim ∧ disabling.fsm ≠ .idle) ∧
    (simCompletes { slotted 0x528E0000 false with agenda := [.controller] } = false ∧
      (slotted 0x528E0000 false).env ≠ .simStuck ∧ (slotted 0x528E0000 false).slot = .full 0x528E0000 false ∧
      (slotted 0x528E0000 false).mbe = true ∧ decode readyState.codes.params (.command 0x528E0000) = .instr (.c22Read 5 3)) ∧
    (simCompletes { readyState with agenda := [.clockGenerator], div := 5 } = false ∧ readyState.life = .ready ∧
      decode readyState.codes.params (.divisor 5) = .instr .div96) := by decide

/-- SimCompletesBeforeThePoll. -/
theorem witness_SimCompletes :
    { slotted 0x528E0000 true with env := .sim, fsm := .poll }.env = .sim ∧
    { slotted 0x528E0000 true with env := .sim, fsm := .poll }.fsm = .poll ∧
    (slotted 0x528E0000 true).mbe = true ∧ (slotted 0x528E0000 true).slot = .full 0x528E0000 true ∧
    decode readyState.codes.params (.command 0x528E0000) = .instr (.c22Read 5 3) := by decide

/-- SubmissionPostsTheRequest: the five clauses. -/
theorem witness_Submission :
    0 < Config.nReq ∧ simCompletes { readyState with agenda := [.submit 0 ⟨0, 31, 31, 0, 0, 0⟩] } = false ∧
    tableFind readyState.pend 0 = none ∧ tableFind readyState.resp 0 = none ∧
    (decodeRequest ⟨0, 31, 31, 0, 0, 0⟩ = .instr (.rd 31 31) ∧ refusal (.rd 31 31) readyState.life = none ∧
      ¬ (Instr.rd 31 31 = .bdis ∧ readyState.env = .sim ∧ readyState.fsm ≠ .idle)) ∧
    5 ≤ (5#3).toNat ∧
    (decodeRequest ⟨0, 32, 31, 0, 0, 0⟩ = .instr (.rd 32 31) ∧
      refusal (.rd 32 31) readyState.life = some .addressOutOfRange) ∧
    (simCompletes { disabling with agenda := [.submit 0 ⟨3, 0, 0, 0, 0, 0⟩], pend := [] } = false ∧
      disabling.resp = [] ∧ decodeRequest ⟨3, 0, 0, 0, 0, 0⟩ = .instr .bdis ∧ disabling.life = .ready ∧
      disabling.env = .sim ∧ disabling.fsm ≠ .idle) ∧
    tableFind (flying .poll).pend 0 ≠ none :=
  ⟨Nat.succ_pos _, by decide⟩

/-- HostTurnsChangeOneField. -/
theorem witness_HostTurns :
    simCompletes { readyState with agenda := [.takeResponse 0], resp := [(0, ⟨.ok, none⟩)] } = false ∧
    simCompletes { readyState with agenda := [.raiseInterrupts 1] } = false := by decide

/-- ArbiterGrantsAWaitingRequester: two requesters wait. -/
theorem witness_Arbiter :
    let s := { readyState with pend := [(0, ⟨0, 5, 3, 0, 0, 0⟩), (1, ⟨1, 31, 31, 1, 0, 0⟩)] }
    s.life = .ready ∧ s.fsm = .idle ∧ s.PendInv ∧ tableSorted s.pend ∧ s.agenda = [] ∧ waitingLifecycle s = [] ∧
      waitingTransfers s ≠ [] ∧ 1 ∈ waitingTransfers s := by
  refine ⟨rfl, rfl, ?_, by decide, rfl, rfl, by decide, by decide⟩
  intro q req h
  simp only [tableFind] at h
  split at h
  · cases h
    exact ⟨.rd 5 3, by decide, by decide⟩
  · split at h
    · cases h
      exact ⟨.wr 31 31 1, by decide, by decide⟩
    · cases h

/-- PlacedWordIsRunNext: the word, under the default codes, and the two ways its step can come. -/
theorem witness_PlacedWord :
    State.reset.codes = defaultCodes ∧
    decode State.reset.codes.params (.command (BitVec.ofNat 32 0x3FFEFFFF)) = .instr (.c45Write 31 31 0xFFFF) ∧
    decodeTableWord 32 0x3FFEFFFF = some (.c45Write 31 31 0xFFFF) ∧
    simCompletes ({ flying .poll with env := .sim }.withFetchWord 32 0x3FFEFFFF) = true ∧
    simCompletes (State.reset.withFetchWord 32 0x3FFEFFFF) = false := by decide

end Sys2Proof.Tests
end

/-!
PROOFS. The two statements of `00_scope.md`: the decoder undoes the encoder, and a turn executes the instruction its agent
fetches.
-/

namespace Sys2Proof

/-! ### The decoder on a packed command word -/

section
variable {p : Params} (hp : p.Ok) (t r : Addr) (v : Half)
include hp

/-- The start field and the read code select the Clause 22 read form (`30_encoding.md` R90). -/
theorem decodeCommand_pack_c22Read :
    decodeCommand p (packCommand p p.sofC22 p.opC22Read t r 0#16) = .instr (.c22Read t r) := by
  obtain ⟨-, -, -, hl⟩ := hp
  obtain ⟨hsof, hop, ht, hr, -, hv⟩ := packCommand_fields p hl p.sofC22 p.opC22Read t r 0#16
  simp only [decodeCommand, hsof, hop, ht, hr, hv, if_true]

/-- The write code is not the read code of its start field (`00_scope.md` R8). -/
theorem decodeCommand_pack_c22Write :
    decodeCommand p (packCommand p p.sofC22 p.opC22Write t r v) = .instr (.c22Write t r v) := by
  obtain ⟨h22, -, -, hl⟩ := hp
  obtain ⟨hsof, hop, ht, hr, -, hv⟩ := packCommand_fields p hl p.sofC22 p.opC22Write t r v
  simp only [decodeCommand, hsof, hop, ht, hr, hv, h22.symm, if_true, if_false]

/-- The two start fields differ (`00_scope.md` R8). -/
theorem decodeCommand_pack_c45Read :
    decodeCommand p (packCommand p p.sofC45 p.opC45Read t r 0#16) = .instr (.c45Read t r) := by
  obtain ⟨-, -, hsofs, hl⟩ := hp
  obtain ⟨hsof, hop, ht, hr, -, hv⟩ := packCommand_fields p hl p.sofC45 p.opC45Read t r 0#16
  simp only [decodeCommand, hsof, hop, ht, hr, hv, hsofs.symm, if_true, if_false]

/-- Start field and operation code both differ from those of the forms tried before (`00_scope.md` R8). -/
theorem decodeCommand_pack_c45Write :
    decodeCommand p (packCommand p p.sofC45 p.opC45Write t r v) = .instr (.c45Write t r v) := by
  obtain ⟨-, h45, hsofs, hl⟩ := hp
  obtain ⟨hsof, hop, ht, hr, -, hv⟩ := packCommand_fields p hl p.sofC45 p.opC45Write t r v
  simp only [decodeCommand, hsof, hop, ht, hr, hv, hsofs.symm, h45.symm, if_true, if_false]

end

/-- Settles O1: a request and a divisor code are selected by a number of their own; a command word by its start field and
operation code, which R8 keeps apart, and its fields read back because they lie apart. -/
theorem decodeOfEncode : Obligations.DecodeOfEncode := by
  intro p hp i
  cases i with
  | rd t r => rfl
  | wr t r v => rfl
  | ben => rfl
  | bdis => rfl
  | init f c => rfl
  | c22Read t r => exact decodeCommand_pack_c22Read hp t r
  | c22Write t r v => exact decodeCommand_pack_c22Write hp t r v
  | c45Read t r => exact decodeCommand_pack_c45Read hp t r
  | c45Write t r v => exact decodeCommand_pack_c45Write hp t r v
  | div8 => rfl
  | div16 => rfl
  | div32 => rfl
  | div48 => rfl
  | div64 => rfl
  | div96 => rfl

end Sys2Proof

namespace Sys2Proof.Machine

/-! ### From a fetch to the step -/

section
variable {s s' : State} {i : Instr} {o : Host.Outcome State Fault Refusal}

theorem step_of_fetch_run (h : fetch s = .run i s') : step s = exec i s' := by
  rw [step, h]

theorem step_of_fetch_done (h : fetch s = .done o) : step s = o := by
  rw [step, h]

/-- With no completion of SIM due, the agenda's first turn is taken (`00_scope.md` R13). -/
theorem fetch_given_turn {t : Turn} {rest : List Turn} (hc : simCompletes s = false) (ha : s.agenda = t :: rest) :
    fetch s = takeTurn t (setAgenda rest s) := by
  simp [fetch, hc, ha]

end

/-! ### The instruction a request stands for -/

section
variable {req : Request} {i : Instr}

/-- A request with the operation of a transfer decodes to READ or WRITE (`30_encoding.md` R81). -/
theorem transfer_of_decodeRequest (ht : isTransfer req = true) (hd : decodeRequest req = .instr i) :
    i = .rd req.tgt req.reg ∨ i = .wr req.tgt req.reg req.data := by
  simp only [isTransfer, Bool.or_eq_true, decide_eq_true_eq] at ht
  rcases ht with h | h
  · exact .inl (by simpa [decodeRequest, h] using hd.symm)
  · exact .inr (by simpa [decodeRequest, h] using hd.symm)

/-- A request with an operation of the lifecycle controller decodes to one (`30_encoding.md` R81). -/
theorem lifecycle_of_decodeRequest (ht : isLifecycle req = true) (hd : decodeRequest req = .instr i) :
    i = .ben ∨ i = .bdis ∨ i = .init req.freq req.proto := by
  simp only [isLifecycle, Bool.or_eq_true, decide_eq_true_eq] at ht
  rcases ht with (h | h) | h
  · exact .inl (by simpa [decodeRequest, h] using hd.symm)
  · exact .inr (.inl (by simpa [decodeRequest, h] using hd.symm))
  · exact .inr (.inr (by simpa [decodeRequest, h] using hd.symm))

end

/-! ### What each agent fetches when it has an enabled step -/

section
variable {s : State} {q : Nat} {req : Request} {i : Instr}

/-- `simForbidsDisable` in the words of `20_memory.md` R75 (c). -/
theorem simForbidsDisable_iff : simForbidsDisable s = true ↔ s.env = .sim ∧ s.fsm ≠ .idle := by
  simp [simForbidsDisable]

/-- In `F_IDLE` the engine fetches the chosen requester's READ or WRITE (`42_transaction_engine.md` R134). -/
theorem fetchEngine_idle (hf : s.fsm = .idle) (hp : tableFind s.pend q = some req)
    (hd : decodeRequest req = .instr i) (ht : isTransfer req = true) :
    fetchEngine q s = .run i (serving q s) := by
  rcases transfer_of_decodeRequest ht hd with rfl | rfl <;> simp [fetchEngine, hf, hp, decode, hd]

/-- In flight the engine fetches the latched transaction, for its owner and whatever requester the turn names. -/
theorem fetchEngine_flight (hf : s.fsm ≠ .idle) : fetchEngine q s = .run (latched s) (serving s.owner s) := by
  rw [fetchEngine, if_neg hf]

/-- The lifecycle controller fetches the requester's operation (`43_lifecycle.md` R168), unless R75 (c) excludes it. -/
theorem fetchLifecycle_run (hp : tableFind s.pend q = some req) (hd : decodeRequest req = .instr i)
    (ht : isLifecycle req = true) (ha : ¬ (i = .bdis ∧ simForbidsDisable s = true)) :
    fetchLifecycle q s = .run i (serving q s) := by
  rcases lifecycle_of_decodeRequest ht hd with rfl | rfl | rfl
  · simp [fetchLifecycle, hp, decode, hd]
  · have hs : ¬ simForbidsDisable s = true := fun h => ha ⟨rfl, h⟩
    simp [fetchLifecycle, hp, decode, hd, hs]
  · simp [fetchLifecycle, hp, decode, hd]

/-- A BUS_DISABLE that `20_memory.md` R75 (c) excludes is refused. -/
theorem fetchLifecycle_refuses (hp : tableFind s.pend q = some req) (hd : decodeRequest req = .instr .bdis)
    (hs : simForbidsDisable s = true) : fetchLifecycle q s = .done (.refused .disableInFlight) := by
  simp [fetchLifecycle, hp, decode, hd, hs]

/-- The controller fetches the word of its slot (`20_memory.md` R67). -/
theorem fetchController_run {w : Word} {ov : Bool} (hs : s.slot = .full w ov) (hm : s.mbe = true)
    (hd : decodeCommand s.codes.params w = .instr i) : fetchController s = .run i s := by
  simp [fetchController, hs, hm, decode, hd]

/-- The clock generator fetches the code in `CLKCFG.DIV` once READY. -/
theorem fetchClock_run (hl : s.life = .ready) (hd : decodeDivisor s.div = .instr i) : fetchClock s = .run i s := by
  simp [fetchClock, hl, decode, hd]

end

/-- Settles O55: the given turn is taken in the state without it, and there its agent fetches what the clause names. -/
theorem stepRunsTheFetchedInstruction : Obligations.StepRunsTheFetchedInstruction := by
  intro s rest hc
  refine ⟨?engineIdle, ?engineFlight, ?lifecycle, ?lifecycleRefused, ?controller, ?clock⟩
  case engineIdle =>
    intro q req i ha hf hp hd ht
    exact step_of_fetch_run ((fetch_given_turn hc ha).trans (fetchEngine_idle hf hp hd ht))
  case engineFlight =>
    intro q ha hf
    exact step_of_fetch_run ((fetch_given_turn hc ha).trans (fetchEngine_flight hf))
  case lifecycle =>
    intro q req i ha hp hd ht hn
    have hn' : ¬ (i = .bdis ∧ simForbidsDisable (setAgenda rest s) = true) := by
      rw [simForbidsDisable_iff]
      exact hn
    exact step_of_fetch_run ((fetch_given_turn hc ha).trans (fetchLifecycle_run hp hd ht hn'))
  case lifecycleRefused =>
    intro q req ha hp hd he hf
    exact step_of_fetch_done ((fetch_given_turn hc ha).trans
      (fetchLifecycle_refuses hp hd (simForbidsDisable_iff.mpr ⟨he, hf⟩)))
  case controller =>
    intro w ov i ha he hs hm hd
    have hturn : takeTurn .controller (setAgenda rest s) = fetchController (setAgenda rest s) := if_neg he
    exact step_of_fetch_run ((fetch_given_turn hc ha).trans (hturn.trans (fetchController_run hs hm hd)))
  case clock =>
    intro i ha hl hd
    exact step_of_fetch_run ((fetch_given_turn hc ha).trans (fetchClock_run hl hd))

end Sys2Proof.Machine

/-!
PROOFS. The statements of `10_state.md`: what a step does to the state, said once, and from it the invariants a step keeps.
-/

namespace Sys2Proof.Machine

/-! ### What a step does to the state -/

/-- The engine's transitions in flight (`42_transaction_engine.md` R144), each with its condition and the state it leaves. -/
inductive Transition (s : State) : State → Prop where
  | checkPasses (hf : s.fsm = .check) (hr : recognised s.proto = true) : Transition s { s with fsm := .enable }
  | checkFails (hf : s.fsm = .check) (hr : recognised s.proto = false) :
      Transition s { s with err := .unsupportedProtocol, fsm := .release }
  | enable (hf : s.fsm = .enable) : Transition s { s with mbe := true, fsm := .issue }
  | issue (hf : s.fsm = .issue) (w : Word) (m : Memory) (n : Nat)
      (he : encodeTransaction s.codes.params s.proto s.d.op s.d.tgt s.d.reg s.d.wdata = some w)
      (hw : ∀ t r v, slotWrite s.codes s.slot = some (t, r, v) →
        m = if Config.freeChoice s.draws then phyWrite s.phy t r v else s.phy)
      (hm : slotWrite s.codes s.slot = none → m = s.phy) :
      Transition s
        { s with
          cmd := w, idle := false, slot := .full w (slotFull s.slot || !s.mbe), phy := m, draws := n, fsm := .poll }
  | issueFails (hf : s.fsm = .issue)
      (he : encodeTransaction s.codes.params s.proto s.d.op s.d.tgt s.d.reg s.d.wdata = none) :
      Transition s { s with err := .unsupportedProtocol, fsm := .release }
  | pollIdle (hf : s.fsm = .poll) (hi : s.idle = true) : Transition s { s with polls := s.polls + 1, fsm := .capture }
  | pollBusy (hf : s.fsm = .poll) (hi : s.idle = false) : Transition s { s with polls := s.polls + 1, fsm := .wait }
  | waitEnds (hf : s.fsm = .wait) (hp : s.polls = 50) : Transition s { s with err := .timeout, fsm := .release }
  | waitPolls (hf : s.fsm = .wait) (hp : s.polls ≠ 50) : Transition s { s with fsm := .poll }
  | capture (hf : s.fsm = .capture) :
      Transition s { s with rdata := if s.d.op = .read then cmdData s else s.rdata, err := .ok, fsm := .release }
  | release (hf : s.fsm = .release) :
      Transition s
        { s with
          guard := .available, fsm := .idle, pend := tableErase s.pend s.owner,
          resp := tablePut s.resp s.owner (releaseResponse s) }

/-- What a step does to the state, bookkeeping aside (`rebook`). -/
inductive Effect (s : State) : State → Prop where
  /-- A turn that passes. -/
  | pass : Effect s s
  | take (q : Nat) : Effect s (takeResponse q s)
  | raise (bits : Word) : Effect s (raiseInterrupts bits s)
  | submit (q : Nat) (req : Request) (i : Instr) (hp : tableFind s.pend q = none) (hr : tableFind s.resp q = none)
      (hd : decodeRequest req = .instr i) (hl : refusal i s.life = none) : Effect s (post q req s)
  /-- The arbiter's grant (`42_transaction_engine.md` R134): the request of the requester served is latched. -/
  | acquire (req : Request) (d : Desc) (hf : s.fsm = .idle) (hl : s.life = .ready)
      (hp : tableFind s.pend s.cur = some req) (hd : decodeRequest req = .instr (latched { s with d := d })) :
      Effect s { s with guard := .held, owner := s.cur, d := d, polls := 0, fsm := .check }
  /-- The engine in flight.  No completion of SIM is due then (`20_memory.md` R75 (b)). -/
  | engine {t : State} (hl : s.life = .ready) (hc : simCompletes s = false) (ht : Transition s t) : Effect s t
  | busEnable (req : Request) (hl : s.life = .ready) (hp : tableFind s.pend s.cur = some req)
      (hd : decodeRequest req = .instr .ben) : Effect s (respond s.cur (plainResponse .ok) (setMbe true s))
  | busDisable (req : Request) (hl : s.life = .ready) (hp : tableFind s.pend s.cur = some req)
      (hd : decodeRequest req = .instr .bdis) (hs : ¬ (s.env = .sim ∧ s.fsm ≠ .idle)) :
      Effect s (respond s.cur (plainResponse .ok) (setSlot (markSlot s.slot) (setMbe false s)))
  | initFails (req : Request) (f : BitVec 32) (p : BitVec 2) (hl : s.life = .uninit)
      (hp : tableFind s.pend s.cur = some req) (hd : decodeRequest req = .instr (.init f p)) (hx : divsel f = none) :
      Effect s (respond s.cur (plainResponse .unsupportedClock) (setLife .failed s))
  | init (req : Request) (f : BitVec 32) (p : BitVec 2) (x : Tier) (hl : s.life = .uninit)
      (hp : tableFind s.pend s.cur = some req) (hd : decodeRequest req = .instr (.init f p)) (hx : divsel f = some x) :
      Effect s (respond s.cur (plainResponse .ok) (bringUp x p s))
  /-- The completion of a Read (`20_memory.md` R67, R73). -/
  | readCompletes (w : Word) (ov : Bool) (v : Half) (n : Nat) (hs : s.slot = .full w ov) (hm : s.mbe = true) :
      Effect s { s with cmd := setField s.codes.layout.data v s.cmd, idle := true, slot := .empty, draws := n }
  /-- The completion of a Write, performed or not (`20_memory.md` R67, R73). -/
  | writeCompletes (w : Word) (ov : Bool) (t r : Addr) (v : Half) (m : Memory) (n : Nat) (hs : s.slot = .full w ov)
      (hm : s.mbe = true) (hw : slotWrite s.codes s.slot = some (t, r, v)) (hp : m = s.phy ∨ m = phyWrite s.phy t r v) :
      Effect s { s with phy := m, idle := true, slot := .empty, draws := n }
  /-- The clock generator divides by the code that stands in `CLKCFG.DIV`. -/
  | clock (x : Tier) (hl : s.life = .ready) (hx : s.div = tierCode x) : Effect s (programDivisor x s)

section
variable {s u : State} {i : Instr}

/-- In flight the engine makes one of its transitions, whatever it would latch in `F_IDLE`. -/
theorem engineStep_transition (d : Desc) (hf : s.fsm ≠ .idle) : Transition s (engineStep d s) := by
  rcases engineStep_cases d s with ⟨h, -⟩ | ⟨h, hr, he⟩ | ⟨h, hr, he⟩ | ⟨h, he⟩ | ⟨h, w, m, n, hw, he, h1, h2⟩ |
    ⟨h, hn, he⟩ | ⟨h, hi, he⟩ | ⟨h, hi, he⟩ | ⟨h, hp, he⟩ | ⟨h, hp, he⟩ | ⟨h, he⟩ | ⟨h, he⟩
  · exact absurd h hf
  all_goals rw [he]
  · exact .checkPasses h hr
  · exact .checkFails h hr
  · exact .enable h
  · exact .issue h w m n hw h1 h2
  · exact .issueFails h hn
  · exact .pollIdle h hi
  · exact .pollBusy h hi
  · exact .waitEnds h hp
  · exact .waitPolls h hp
  · exact .capture h
  · exact .release h

/-- In `F_IDLE` the engine acquires the guard and latches the operands. -/
theorem engineStep_idle (d : Desc) (hf : s.fsm = .idle) :
    engineStep d s = { s with guard := .held, owner := s.cur, d := d, polls := 0, fsm := .check } := by
  simp [engineStep, hf, acquire, goto, takeGuard]

/-- A granted READ or WRITE is latched as it was requested: its addresses are below 32. -/
theorem effect_of_grant {req : Request} (hf : s.fsm = .idle) (hp : tableFind s.pend s.cur = some req)
    (hd : decodeRequest req = .instr i) (ht : (∃ t r, i = .rd t r) ∨ ∃ t r v, i = .wr t r v)
    (h : exec i s = .next u) : Effect s u := by
  rcases ht with ⟨t, r, rfl⟩ | ⟨t, r, v, rfl⟩
  all_goals
    obtain ⟨hl, ht, hr, rfl⟩ := exec_answers h
    rw [engineStep_idle _ hf]
    refine .acquire req _ hf hl hp (hd.trans ?_)
    simp only [latched, wideAddr_lowAddr ht, wideAddr_lowAddr hr]

/-- The latched transaction makes the engine's next transition. -/
theorem effect_of_flight (hf : s.fsm ≠ .idle) (hc : simCompletes s = false) (h : exec (latched s) s = .next u) :
    Effect s u := by
  have hl : s.life = .ready := by
    unfold latched at h
    split at h <;> exact (exec_answers h).1
  obtain ⟨d, hd⟩ := exec_latched s s hl
  rw [hd] at h
  cases h
  exact .engine hl hc (engineStep_transition d hf)

/-- What the lifecycle controller's operations do. -/
theorem effect_of_lifecycle {req : Request} (hp : tableFind s.pend s.cur = some req) (hd : decodeRequest req = .instr i)
    (ht : i = .ben ∨ i = .bdis ∨ ∃ f p, i = .init f p) (hs : disableForbidden i s = false) (h : exec i s = .next u) :
    Effect s u := by
  rcases ht with rfl | rfl | ⟨f, p, rfl⟩
  · obtain ⟨hl, rfl⟩ := exec_answers h
    exact .busEnable req hl hp hd
  · obtain ⟨hl, rfl⟩ := exec_answers h
    refine .busDisable req hl hp hd fun he => ?_
    simp [disableForbidden, simForbidsDisable_iff.mpr he] at hs
  · obtain ⟨hl, -, ⟨hx, rfl⟩ | ⟨x, hx, rfl⟩⟩ := exec_answers h
    · exact .initFails req f p hl hp hd hx
    · exact .init req f p x hl hp hd hx

/-- With a command in the slot and the bus enabled the completion step is taken (`20_memory.md` R67). -/
theorem complete_of_full {w : Word} {ov : Bool} (f : Bool → State → State) (hs : s.slot = .full w ov)
    (hm : s.mbe = true) : complete f s = f ov s := by
  simp [complete, hs, hm]

/-- The completion step of a Read whose command can complete. -/
theorem effect_completeRead {w : Word} {ov : Bool} (t r : Addr) (hs : s.slot = .full w ov) (hm : s.mbe = true) :
    Effect s (complete (completeRead t r) s) := by
  obtain ⟨v, n, he, -⟩ := completeRead_eq t r ov s
  rw [complete_of_full _ hs hm, he]
  exact .readCompletes w ov v n hs hm

/-- The completion step of a Write whose command can complete. -/
theorem effect_completeWrite {w : Word} {ov : Bool} {t r : Addr} {v : Half} (hs : s.slot = .full w ov)
    (hm : s.mbe = true) (hw : slotWrite s.codes s.slot = some (t, r, v)) :
    Effect s (complete (completeWrite t r v) s) := by
  obtain ⟨m, n, he, hf, ht⟩ := completeWrite_eq t r v ov s
  have hp : m = s.phy ∨ m = phyWrite s.phy t r v := by
    cases ov with
    | false => exact .inr (hf rfl).1
    | true =>
      rw [(ht rfl).1]
      exact (ite_eq_or_eq ..).symm
  rw [complete_of_full _ hs hm, he]
  exact .writeCompletes w ov t r v m n hs hm hw hp

/-- What the command in the slot does. -/
theorem effect_of_command {w : Word} {ov : Bool} (hs : s.slot = .full w ov) (hm : s.mbe = true)
    (hd : decodeCommand s.codes.params w = .instr i) (h : exec i s = .next u) : Effect s u := by
  have hu := exec_answers h
  rcases decodeCommand_cases s.codes.params w with ⟨t, r, h'⟩ | ⟨t, r, v, h'⟩ | ⟨t, r, h'⟩ | ⟨t, r, v, h'⟩ | h' <;>
    rw [hd] at h' <;> cases h' <;> subst hu
  · exact effect_completeRead t r hs hm
  · exact effect_completeWrite hs hm (by simp [slotWrite, hs, hd])
  · exact effect_completeRead t r hs hm
  · exact effect_completeWrite hs hm (by simp [slotWrite, hs, hd])

/-- What the clock generator does. -/
theorem effect_of_clock (hl : s.life = .ready) (hd : decodeDivisor s.div = .instr i) (h : exec i s = .next u) :
    Effect s u := by
  have hu := exec_answers h
  rcases decodeDivisor_cases s.div with ⟨hx, h'⟩ | ⟨hx, h'⟩ | ⟨hx, h'⟩ | ⟨hx, h'⟩ | ⟨hx, h'⟩ | ⟨hx, h'⟩ | ⟨-, h'⟩ <;>
    rw [hd] at h' <;> cases h' <;> subst hu <;> exact .clock _ hl hx

/-- A step that answers a next state has one of the effects, on a state that differs in bookkeeping only. -/
theorem step_effect {t : State} (h : step s = .next t) : ∃ l n q, Effect (rebook l n q s) t := by
  obtain ⟨l, n, q, ⟨i, ho, he⟩ | rfl | ⟨r, rfl⟩ | ⟨bits, rfl⟩ | ⟨r, req, i, -, hp, hr, hd, hl, -, rfl⟩⟩ := step_cases h
  · refine ⟨l, n, q, ?_⟩
    cases ho with
    | grant req hf hp hd ht => exact effect_of_grant hf hp hd ht he
    | flight hf hi _ hc => exact effect_of_flight hf hc (hi ▸ he)
    | lifecycle req hp hd ht hs => exact effect_of_lifecycle hp hd ht hs he
    | command w ov hs hm hd => exact effect_of_command hs hm hd he
    | clock hl hd => exact effect_of_clock hl hd he
  · exact ⟨l, n, q, .pass⟩
  · exact ⟨l, n, q, .take r⟩
  · exact ⟨l, n, q, .raise bits⟩
  · exact ⟨l, n, q, .submit r req i hp hr hd hl⟩

end
end Sys2Proof.Machine

namespace Sys2Proof.Machine

/-! ### From the effect to the step -/

section
variable {s t : State}

/-- What bookkeeping and every effect keep, every step keeps. -/
theorem step_keeps_of_effect {P : State → Prop} (hbook : ∀ l n q s, P s → P (rebook l n q s))
    (heffect : ∀ s t, Effect s t → P s → P t) (hs : P s) (h : step s = .next t) : P t := by
  obtain ⟨l, n, q, he⟩ := step_effect h
  exact heffect _ t he (hbook l n q s hs)

/-! ### Guard and slot -/

/-- Only the acquire and the release touch GUARD, and they enter and leave `F_IDLE` (`10_state.md` R25). -/
theorem Effect.guardInv (e : Effect s t) (h : s.GuardInv) : t.GuardInv := by
  cases e with
  | acquire => simp [State.GuardInv]
  | engine _ _ ht =>
    cases ht with
    | release => simp [State.GuardInv]
    | _ hf => simpa [State.GuardInv, hf] using h
  | _ => exact h

/-- With STAT.IDLE 1 the slot is empty (`10_state.md` R41). -/
theorem State.SlotInv.slot_empty (h : s.SlotInv) (hi : s.idle = true) : s.slot = .empty := by
  cases hs : s.slot with
  | empty => rfl
  | full w ov => simp [h.1.mpr (by rw [hs]; rfl)] at hi

/-- An empty slot with STAT.IDLE 1 meets the invariant. -/
theorem slotInv_of_empty (hi : s.idle = true) (hs : s.slot = .empty) : s.SlotInv := by
  simp [State.SlotInv, hi, hs, slotFull]

/-- Enabling the bus keeps the invariant. -/
theorem State.SlotInv.setMbe_true (h : s.SlotInv) : (setMbe true s).SlotInv := ⟨h.1, fun _ _ => rfl⟩

/-- Disabling the bus keeps it, since a command in the slot is marked overlapped (`20_memory.md` R72). -/
theorem State.SlotInv.disable (h : s.SlotInv) : (setSlot (markSlot s.slot) (setMbe false s)).SlotInv := by
  obtain ⟨hidle, -⟩ := h
  cases hs : s.slot <;> simpa [State.SlotInv, markSlot, slotFull, hs] using hidle

theorem Effect.slotInv (e : Effect s t) (h : s.SlotInv) : t.SlotInv := by
  cases e with
  | engine _ _ ht =>
    cases ht with
    | enable => exact h.setMbe_true
    | issue => simp [State.SlotInv, slotFull]
    | _ => exact h
  | busEnable => exact h.setMbe_true
  | busDisable => exact h.disable
  | init => exact h.setMbe_true
  | readCompletes => exact slotInv_of_empty rfl rfl
  | writeCompletes => exact slotInv_of_empty rfl rfl
  | _ => exact h

/-- Under codes that meet `00_scope.md` R8 an encoded word is of one of the four forms (`41_command_encoder.md` R118). -/
theorem decodeCommand_of_encoded {p : Params} (hp : p.Ok) {proto : BitVec 2} {op : Op} {tgt r : Addr} {v : Half} {w : Word}
    (he : encodeTransaction p proto op tgt r v = some w) : ∃ i, decodeCommand p w = .instr i := by
  rcases encodeTransaction_cases p proto op tgt r v with ⟨-, -, h⟩ | ⟨-, -, h⟩ | ⟨-, -, h⟩ | ⟨-, -, h⟩ | ⟨-, -, h⟩ <;>
    rw [he] at h <;> cases h
  · exact ⟨_, decodeCommand_pack_c22Read hp tgt r⟩
  · exact ⟨_, decodeCommand_pack_c22Write hp tgt r v⟩
  · exact ⟨_, decodeCommand_pack_c45Read hp tgt r⟩
  · exact ⟨_, decodeCommand_pack_c45Write hp tgt r v⟩

theorem Effect.slotWordInv (e : Effect s t) (hc : s.codes.Ok) (h : s.SlotWordInv) : t.SlotWordInv := by
  cases e with
  | engine _ _ ht =>
    cases ht with
    | issue _ w m n he =>
      intro w' ov' hs
      cases hs
      exact decodeCommand_of_encoded hc he
    | _ => exact h
  | busDisable =>
    intro w ov hs
    simp only [respond_slot, setSlot_slot] at hs
    cases hs' : s.slot with
    | empty => simp [hs', markSlot] at hs
    | full w' ov' =>
      simp only [hs', markSlot, Slot.full.injEq] at hs
      obtain ⟨rfl, -⟩ := hs
      exact h _ _ hs'
  | readCompletes => exact fun _ _ hs => nomatch hs
  | writeCompletes => exact fun _ _ hs => nomatch hs
  | _ => exact h

/-! ### The transaction in flight -/

/-- POLLS counts up at a poll only, and the wait after the last attempt leads to no other (`42_transaction_engine.md`
R139, R140). -/
theorem Effect.pollsInv (e : Effect s t) (h : s.PollsInv) : t.PollsInv := by
  cases e with
  | acquire => rfl
  | engine _ _ ht =>
    cases ht with
    | release => trivial
    | _ hf => simp only [State.PollsInv, hf, pollBudget] at h ⊢; omega
  | _ => exact h

/-- Past `F_CHECK` PROTO is what was checked: INITIALIZE, the one writer, finds nothing in flight. -/
theorem Effect.protoInv (e : Effect s t) (hlife : s.LifeInv) (h : s.ProtoInv) : t.ProtoInv := by
  cases e with
  | acquire => simp [State.ProtoInv]
  | engine _ _ ht =>
    cases ht with
    | checkPasses _ hr => exact fun _ => hr
    | enable hf | issue hf | pollIdle hf | pollBusy hf | waitPolls hf => exact fun _ => h (by simp [hf])
    | _ => simp [State.ProtoInv]
  | init _ _ _ _ hl =>
    obtain ⟨hf, -⟩ := hlife (by simp [hl])
    simp [State.ProtoInv, bringUp, programDivisor, hf]
  | _ => exact h

/-- A transaction reaches its release with no status of INITIALIZE (`60_exceptions.md` R186). -/
theorem Effect.errInv (e : Effect s t) (h : s.ErrInv) : t.ErrInv := by
  cases e with
  | acquire => simp [State.ErrInv]
  | engine _ _ ht => cases ht <;> simp [State.ErrInv]
  | _ => exact h

/-! ### The mailboxes -/

/-- A request erased or kept: what is found afterwards was there. -/
theorem tableFind_of_erase {α : Type} {l : List (Nat × α)} {a b : Nat} {v : α}
    (h : tableFind (tableErase l a) b = some v) : b ≠ a ∧ tableFind l b = some v := by
  by_cases hb : b = a
  · subst hb; simp at h
  · exact ⟨hb, by rwa [tableFind_erase_other l a b hb] at h⟩

/-- An answer takes the request away and puts the response in its place (`10_state.md` R31). -/
theorem State.MailInv.respond (h : s.MailInv) (q : Nat) (v : Response) : (respond q v s).MailInv := by
  obtain ⟨hp, hr, hone⟩ := h
  refine ⟨tableSorted_erase _ _ hp, tableSorted_put _ _ _ hr, fun q' => ?_⟩
  by_cases hq : q' = q
  · subst hq; simp
  · simpa [tableFind_erase_other, tableFind_put_other, hq] using hone q'

/-- A submission finds both mailboxes of its requester empty (`42_transaction_engine.md` R133). -/
theorem State.MailInv.post (h : s.MailInv) {q : Nat} (req : Request) (hq : tableFind s.resp q = none) :
    (post q req s).MailInv := by
  obtain ⟨hp, hr, hone⟩ := h
  refine ⟨tableSorted_put _ _ _ hp, hr, fun q' => ?_⟩
  by_cases hq' : q' = q
  · subst hq'; exact .inr hq
  · simpa [tableFind_put_other, hq'] using hone q'

theorem State.MailInv.takeResponse (h : s.MailInv) (q : Nat) : (takeResponse q s).MailInv := by
  obtain ⟨hp, hr, hone⟩ := h
  refine ⟨hp, tableSorted_erase _ _ hr, fun q' => ?_⟩
  by_cases hq : q' = q
  · subst hq; simp
  · simpa [tableFind_erase_other, hq] using hone q'

theorem Effect.mailInv (e : Effect s t) (h : s.MailInv) : t.MailInv := by
  cases e with
  | take q => exact h.takeResponse q
  | submit q req i _ hr => exact h.post req hr
  | engine _ _ ht =>
    cases ht with
    | release => exact h.respond s.owner _
    | _ => exact h
  | busEnable => exact h.respond s.cur _
  | busDisable => exact h.respond s.cur _
  | initFails => exact h.respond s.cur _
  | init => exact h.respond s.cur _
  | _ => exact h

theorem State.PendInv.respond (h : s.PendInv) (q : Nat) (v : Response) : (respond q v s).PendInv :=
  fun q' req hp => h q' req (tableFind_of_erase hp).2

theorem State.PendInv.post (h : s.PendInv) {q : Nat} {req : Request} {i : Instr} (hd : decodeRequest req = .instr i)
    (hi : i.WellFormed) : (post q req s).PendInv := by
  intro q' req' hp
  by_cases hq : q' = q
  · subst hq
    simp only [post_pend, tableFind_put_self, Option.some.injEq] at hp
    subst hp
    exact ⟨i, hd, hi⟩
  · exact h q' req' (by simpa [tableFind_put_other, hq] using hp)

theorem Effect.pendInv (e : Effect s t) (h : s.PendInv) : t.PendInv := by
  cases e with
  | submit q req i _ _ hd hl => exact h.post hd (wellFormed_of_refusal_none hl)
  | engine _ _ ht =>
    cases ht with
    | release => exact h.respond s.owner (releaseResponse s)
    | _ => exact h
  | busEnable => exact h.respond s.cur (plainResponse .ok)
  | busDisable => exact h.respond s.cur (plainResponse .ok)
  | initFails => exact h.respond s.cur (plainResponse .unsupportedClock)
  | init => exact h.respond s.cur (plainResponse .ok)
  | _ => exact h

/-- A lifecycle operation is not the latched transaction, so answering it leaves the owner's request in its mailbox. -/
theorem State.FlightInv.respond (h : s.FlightInv) {q : Nat} {req : Request} {i : Instr} (v : Response)
    (hp : tableFind s.pend q = some req) (hd : decodeRequest req = .instr i) (hi : i ≠ latched s) :
    (respond q v s).FlightInv := by
  intro hf
  obtain ⟨req', hp', hd'⟩ := h hf
  refine ⟨req', ?_, hd'⟩
  have hq : s.owner ≠ q := by
    intro hq
    rw [hq, hp] at hp'
    cases hp'
    rw [hd] at hd'
    cases hd'
    exact hi rfl
  simpa [tableFind_erase_other, hq] using hp'

theorem State.FlightInv.post (h : s.FlightInv) {q : Nat} (req : Request) (hq : tableFind s.pend q = none) :
    (post q req s).FlightInv := by
  intro hf
  obtain ⟨req', hp', hd'⟩ := h hf
  refine ⟨req', ?_, hd'⟩
  have hne : s.owner ≠ q := by
    intro he
    rw [he, hq] at hp'
    cases hp'
  simpa [tableFind_put_other, hne] using hp'

/-- The latched transaction is a READ or a WRITE, no operation of the lifecycle controller. -/
theorem lifecycle_ne_latched {i : Instr} (hi : i = .ben ∨ i = .bdis ∨ ∃ f p, i = .init f p) : i ≠ latched s := by
  unfold latched
  rcases hi with rfl | rfl | ⟨f, p, rfl⟩ <;> split <;> exact nofun

theorem Effect.flightInv (e : Effect s t) (h : s.FlightInv) : t.FlightInv := by
  cases e with
  | submit q req i hp => exact h.post req hp
  | acquire req d _ _ hp hd => exact fun _ => ⟨req, hp, hd⟩
  | engine _ _ ht =>
    cases ht with
    | release => exact fun hf => absurd rfl hf
    | _ hf => exact fun _ => h (by simp [hf])
  | busEnable req _ hp hd => exact h.respond (plainResponse .ok) hp hd (lifecycle_ne_latched (.inl rfl))
  | busDisable req _ hp hd => exact h.respond (plainResponse .ok) hp hd (lifecycle_ne_latched (.inr (.inl rfl)))
  | initFails req f p _ hp hd =>
    exact h.respond (plainResponse .unsupportedClock) hp hd (lifecycle_ne_latched (.inr (.inr ⟨f, p, rfl⟩)))
  | init req f p x _ hp hd =>
    exact h.respond (plainResponse .ok) hp hd (lifecycle_ne_latched (.inr (.inr ⟨f, p, rfl⟩)))
  | _ => exact h

/-! ### Lifecycle and configuration -/

/-- Nothing is in flight and the bus is off unless READY (`43_lifecycle.md` R161, R162, R170). -/
theorem Effect.lifeInv (e : Effect s t) (h : s.LifeInv) : t.LifeInv := by
  cases e with
  | acquire _ _ _ hl => exact fun hn => absurd hl hn
  | engine hl _ ht => cases ht <;> exact fun hn => absurd hl hn
  | busEnable _ hl => exact fun hn => absurd hl hn
  | busDisable _ hl => exact fun hn => absurd hl hn
  | initFails _ _ _ hl => exact fun _ => h (by simp [hl])
  | init => exact fun hn => absurd rfl hn
  | readCompletes => exact fun hn => ⟨(h hn).1, rfl, (h hn).2.2⟩
  | writeCompletes => exact fun hn => ⟨(h hn).1, rfl, (h hn).2.2⟩
  | _ => exact h

/-- INITIALIZE writes the divisor of a tier and starts the generator on it; the generator's own turn finds that code
(`10_state.md` R34). -/
theorem Effect.readyInv (e : Effect s t) (h : s.ReadyInv) : t.ReadyInv := by
  cases e with
  | engine _ _ ht => cases ht <;> exact h
  | initFails => exact fun hl => nomatch hl
  | init _ _ _ x => exact fun _ => ⟨rfl, x, rfl, rfl⟩
  | clock x hl => exact fun _ => ⟨(h hl).1, x, rfl, rfl⟩
  | _ => exact h

/-- No effect changes the configuration of the command word (`30_encoding.md` R86). -/
theorem Effect.codes_eq (e : Effect s t) : t.codes = s.codes := by
  cases e with
  | engine _ _ ht => cases ht <;> rfl
  | _ => rfl

/-- Once READY no effect changes LIFE, PROTO, CLKCFG.DIV or INT_EN: INITIALIZE has no meaning any more. -/
theorem Effect.config_of_ready (e : Effect s t) (hl : s.life = .ready) :
    t.life = .ready ∧ t.proto = s.proto ∧ t.div = s.div ∧ t.intEn = s.intEn := by
  cases e with
  | engine _ _ ht => cases ht <;> exact ⟨hl, rfl, rfl, rfl⟩
  | initFails _ _ _ hu => simp [hl] at hu
  | init _ _ _ _ hu => simp [hl] at hu
  | clock x _ hx => exact ⟨hl, rfl, hx.symm, rfl⟩
  | _ => exact ⟨hl, rfl, rfl, rfl⟩

/-! ### Interrupts and memory -/

/-- A raise sets no bit beyond the `N_INT` that exist (`20_memory.md` R56). -/
theorem State.IntInv.raise (h : s.IntInv) (bits : Word) : (raiseInterrupts bits s).IntInv := by
  obtain ⟨hen, hpend⟩ := h
  refine ⟨hen, ?_⟩
  apply BitVec.eq_of_getLsbD_eq
  intro i hi
  have hi' := congrArg (BitVec.getLsbD · i) hpend
  simp only [BitVec.getLsbD_and, BitVec.getLsbD_not, getLsbD_sourceMask, getLsbD_raiseInterrupts] at hi' ⊢
  by_cases hn : i < Config.nInt <;> simp_all

theorem Effect.intInv (e : Effect s t) (h : s.IntInv) : t.IntInv := by
  cases e with
  | raise bits => exact h.raise bits
  | engine _ _ ht => cases ht <;> exact h
  | init => exact ⟨BitVec.zero_and, BitVec.zero_and⟩
  | _ => exact h

/-- A command that is written over keeps the memory's form, performed or not. -/
theorem phy_wf_of_slotWrite {m : Memory} (h : Memory.wf s.phy)
    (hw : ∀ t r v, slotWrite s.codes s.slot = some (t, r, v) →
      m = if Config.freeChoice s.draws then phyWrite s.phy t r v else s.phy)
    (hn : slotWrite s.codes s.slot = none → m = s.phy) : Memory.wf m := by
  cases hx : slotWrite s.codes s.slot with
  | none => exact hn hx ▸ h
  | some x =>
    obtain ⟨t, r, v⟩ := x
    rw [hw t r v hx]
    split
    · exact phyWrite_wf _ _ _ _ h
    · exact h

/-- Memory is written by `phyWrite` only, which keeps the canonical form. -/
theorem Effect.phy_wf (e : Effect s t) (h : Memory.wf s.phy) : Memory.wf t.phy := by
  cases e with
  | engine _ _ ht =>
    cases ht with
    | issue _ w m n _ hw hm => exact phy_wf_of_slotWrite h hw hm
    | _ => exact h
  | writeCompletes w ov t r v m n _ _ _ hp =>
    rcases hp with rfl | rfl
    · exact h
    · exact phyWrite_wf _ _ _ _ h
  | _ => exact h

/-! ### SIM -/

/-- With the slot empty only the first two clauses are left. -/
theorem simInv_of_slot_empty (hs : s.slot = .empty) (hw : s.fsm ≠ .wait) (hi : s.fsm = .issue → s.mbe = true) :
    s.SimInv :=
  fun _ => ⟨hw, hi, fun w ov h => by simp [hs] at h⟩

/-- In SIM a command is in the slot in `F_POLL` only. -/
theorem State.SimInv.slot_empty (h : s.SimInv) (he : s.env = .sim) (hf : s.fsm ≠ .poll) : s.slot = .empty := by
  cases hs : s.slot with
  | empty => rfl
  | full w ov => exact absurd ((h he).2.2 w ov hs).1 hf

/-- In SIM a poll finds the command completed, since a completion that is due comes first (`20_memory.md` R75 (b)). -/
theorem State.SimInv.poll_finds_idle (h : s.SimInv) (hslot : s.SlotInv) (he : s.env = .sim) (hf : s.fsm = .poll)
    (hc : simCompletes s = false) : s.idle = true := by
  cases hs : s.slot with
  | empty => simpa [hs, slotFull] using hslot.1
  | full w ov =>
    obtain ⟨-, hm, -, -⟩ := (h he).2.2 w ov hs
    simp [simCompletes, completionEnabled, he, hf, hs, hm, slotFull] at hc

/-- A transition of the engine keeps what holds of SIM: it fills the slot in `F_ISSUE` alone, which finds it empty and the
bus enabled, and it never gets to `F_WAIT`. -/
theorem Transition.simInv (e : Transition s t) (hslot : s.SlotInv) (hc : simCompletes s = false) (h : s.SimInv) :
    t.SimInv := by
  intro he
  have he' : s.env = .sim := by cases e <;> exact he
  cases e with
  | pollBusy hf hi => simp [h.poll_finds_idle hslot he' hf hc] at hi
  | pollIdle hf hi => exact simInv_of_slot_empty (hslot.slot_empty hi) (by simp) (by simp) he
  | issue hf w m n hw =>
    have hs := h.slot_empty he' (by simp [hf])
    have hm := (h he').2.1 hf
    refine ⟨by simp, by simp, fun w' ov' hfull => ?_⟩
    simp only [hs, hm, slotFull, Slot.full.injEq] at hfull
    obtain ⟨rfl, rfl⟩ := hfull
    exact ⟨rfl, hm, rfl, hw⟩
  | waitPolls hf => exact absurd hf (h he').1
  | _ hf => exact simInv_of_slot_empty (h.slot_empty he' (by simp [hf])) (by simp) (by simp) he

theorem Effect.simInv (e : Effect s t) (hslot : s.SlotInv) (hlife : s.LifeInv) (h : s.SimInv) : t.SimInv := by
  cases e with
  | acquire req d hf =>
    exact fun he => simInv_of_slot_empty (h.slot_empty he (by simp [hf])) (by simp) (by simp) he
  | engine _ hc ht => exact ht.simInv hslot hc h
  | busEnable =>
    intro he
    obtain ⟨hw, -, hfull⟩ := h he
    exact ⟨hw, fun _ => rfl, fun w ov hs => ⟨(hfull w ov hs).1, rfl, (hfull w ov hs).2.2⟩⟩
  | busDisable _ _ _ _ hn =>
    intro he
    have hf : s.fsm = .idle := by
      by_contra hf
      exact hn ⟨he, hf⟩
    have hs := h.slot_empty he (by simp [hf])
    exact simInv_of_slot_empty (by simp [hs, markSlot]) (by simp [hf]) (by simp [hf]) he
  | init _ _ _ _ hl =>
    obtain ⟨hf, hs, -⟩ := hlife (by simp [hl])
    refine simInv_of_slot_empty ?_ ?_ ?_ <;> simp [bringUp, programDivisor, hf, hs]
  | readCompletes => exact fun he => simInv_of_slot_empty rfl (h he).1 (h he).2.1 he
  | writeCompletes => exact fun he => simInv_of_slot_empty rfl (h he).1 (h he).2.1 he
  | _ => exact h

/-! ### The whole invariant -/

/-- No clause of the invariant speaks of the bookkeeping. -/
theorem State.Inv.rebook (h : s.Inv) (l : List Turn) (n q : Nat) : (rebook l n q s).Inv :=
  ⟨h.codes, h.guard, h.slot, h.slotWord, h.polls, h.life, h.ready, h.mail, h.pend, h.flight, h.proto, h.err, h.ints,
    h.sim, h.phy⟩

/-- Every effect keeps the whole invariant. -/
theorem Effect.inv (e : Effect s t) (h : s.Inv) : t.Inv where
  codes := e.codes_eq ▸ h.codes
  guard := e.guardInv h.guard
  slot := e.slotInv h.slot
  slotWord := e.slotWordInv h.codes h.slotWord
  polls := e.pollsInv h.polls
  life := e.lifeInv h.life
  ready := e.readyInv h.ready
  mail := e.mailInv h.mail
  pend := e.pendInv h.pend
  flight := e.flightInv h.flight
  proto := e.protoInv h.life h.proto
  err := e.errInv h.err
  ints := e.intInv h.ints
  sim := e.simInv h.slot h.life h.sim
  phy := e.phy_wf h.phy

end

/-- Settles O45: each clause is kept by every effect; SIM's needs those of the slot and the lifecycle beside it. -/
theorem stepKeepsTheInvariant : Obligations.StepKeepsTheInvariant :=
  fun _ _ hs h => step_keeps_of_effect (fun l n q _ h => h.rebook l n q) (fun _ _ e => e.inv) hs h

end Sys2Proof.Machine

namespace Sys2Proof.Machine

/-! ### The invariants stated one by one -/

/-- Settles O46: of the effects only the acquire and the release change GUARD. -/
theorem guardHeldExactlyInFlight : Obligations.GuardHeldExactlyInFlight :=
  ⟨⟨fun _ => rfl, fun _ => rfl⟩, fun _ _ hs h => step_keeps_of_effect (fun _ _ _ _ h => h) (fun _ _ e => e.guardInv) hs h⟩

/-- Settles O47: the write of CMD fills the slot as idle falls, a completion empties it as idle rises, and disabling the
bus marks it. -/
theorem idleExactlyWhenSlotEmpty : Obligations.IdleExactlyWhenSlotEmpty :=
  fun _ _ hs h => step_keeps_of_effect (fun _ _ _ _ h => h) (fun _ _ e => e.slotInv) hs h

/-- Settles O48: a submission finds both mailboxes empty, and an answer empties one as it fills the other. -/
theorem mailboxesHoldOneOperation : Obligations.MailboxesHoldOneOperation :=
  fun _ _ hs h => step_keeps_of_effect (fun _ _ _ _ h => h) (fun _ _ e => e.mailInv) hs h

/-- Settles O51: INITIALIZE has no meaning once READY, and the clock generator writes the code it found. -/
theorem configurationFixedOnceReady : Obligations.ConfigurationFixedOnceReady := by
  intro s t h
  obtain ⟨l, n, q, e⟩ := step_effect h
  exact ⟨e.codes_eq, e.config_of_ready⟩

/-! ### Reset -/

/-- A table that lists nothing is empty. -/
theorem table_eq_nil {α : Type} {l : List (Nat × α)} (h : ∀ a, tableFind l a = none) : l = [] := by
  cases l with
  | nil => rfl
  | cons e l => simpa [tableFind] using h e.1

/-- Settles O44: in `F_IDLE`, not READY, with the slot and the mailboxes empty, no clause reads an unspecified register but
those on the interrupts and the memory. -/
theorem everyResetStateMeetsTheInvariant : Obligations.EveryResetStateMeetsTheInvariant := by
  intro s hreset hcodes hints hphy
  obtain ⟨hlife, hguard, hfsm, hpend, hresp, hmbe, hidle, hslot⟩ := hreset
  have hpend' := table_eq_nil hpend
  have hresp' := table_eq_nil hresp
  exact
    { codes := hcodes
      guard := by simp [State.GuardInv, hguard, hfsm]
      slot := slotInv_of_empty hidle hslot
      slotWord := fun w ov h => by simp [hslot] at h
      polls := by simp [State.PollsInv, hfsm]
      life := fun _ => ⟨hfsm, hslot, hmbe⟩
      ready := fun h => by simp [hlife] at h
      mail := by simp [State.MailInv, hpend', hresp']
      pend := fun q req h => by simp [hpend q] at h
      flight := fun h => absurd hfsm h
      proto := by simp [State.ProtoInv, hfsm]
      err := by simp [State.ErrInv, hfsm]
      ints := hints
      sim := simInv_of_slot_empty hslot (by simp [hfsm]) (by simp [hfsm])
      phy := hphy }

/-- Settles O42: the stated values of `10_state.md` R43. -/
theorem resetHasTheStatedValues : Obligations.ResetHasTheStatedValues :=
  ⟨rfl, rfl, rfl, fun _ => rfl, fun _ => rfl, rfl, rfl, rfl⟩

/-- Settles O43: the reset state is one of the states that have R43's values, with the default codes. -/
theorem resetMeetsTheInvariant : Obligations.ResetMeetsTheInvariant :=
  everyResetStateMeetsTheInvariant State.reset resetHasTheStatedValues defaultCodes_ok
    ⟨BitVec.zero_and, BitVec.zero_and⟩ reset_phy_wf

/-! ### The host's turns -/

/-- Settles O58: both turns pass with one table or one register changed. -/
theorem hostTurnsChangeOneField : Obligations.HostTurnsChangeOneField := by
  intro s rest hc
  refine ⟨fun q ha => ?take, fun bits ha => ?raise⟩
  case take =>
    refine ⟨tableErase s.resp q, ?_, tableFind_erase_self s.resp q, fun q' => tableFind_erase_other s.resp q q'⟩
    exact step_of_fetch_done (fetch_given_turn hc ha)
  case raise =>
    refine ⟨(raiseInterrupts bits s).intPend, ?_, getLsbD_raiseInterrupts bits s⟩
    exact step_of_fetch_done (fetch_given_turn hc ha)

end Sys2Proof.Machine

/-!
PROOFS. The statements of `20_memory.md`: the completion of a command, and what a READ of SIM's MDIO space returns.
-/

namespace Sys2Proof.Machine

/-! ### The completion step -/

section
variable {s : State} {i : Instr} (t r : Addr) (v : Half)

/-- Both read forms carry out the completion of a Read. -/
theorem exec_readForm (hi : i = .c22Read t r ∨ i = .c45Read t r) :
    exec i s = .next (complete (completeRead t r) s) := by
  rcases hi with rfl | rfl <;> rfl

/-- Both write forms carry out the completion of a Write. -/
theorem exec_writeForm (hi : i = .c22Write t r v ∨ i = .c45Write t r v) :
    exec i s = .next (complete (completeWrite t r v) s) := by
  rcases hi with rfl | rfl <;> rfl

/-- With the bus disabled or the slot empty the controller waits (`20_memory.md` R68). -/
theorem complete_of_waiting (f : Bool → State → State) (h : s.mbe = false ∨ s.slot = .empty) : complete f s = s := by
  rcases complete_cases f s with ⟨he, -⟩ | ⟨w, ov, hs, hm, -⟩
  · exact he
  · rcases h with h | h
    · simp [h] at hm
    · simp [h] at hs

/-- What the completion step of a Read may change, whether or not it is enabled. -/
theorem complete_completeRead (s : State) :
    ∃ c b x n, complete (completeRead t r) s = { s with cmd := c, idle := b, slot := x, draws := n } ∧
      (c = s.cmd ∨ ∃ v : Half, c = setField s.codes.layout.data v s.cmd) := by
  rcases complete_cases (completeRead t r) s with ⟨he, -⟩ | ⟨w, ov, -, -, he⟩
  · exact ⟨s.cmd, s.idle, s.slot, s.draws, he, .inl rfl⟩
  · obtain ⟨v, n, hr, -⟩ := completeRead_eq t r ov s
    exact ⟨_, true, .empty, n, he.trans hr, .inr ⟨v, rfl⟩⟩

/-- What the completion step of a Write may change, whether or not it is enabled. -/
theorem complete_completeWrite (s : State) :
    ∃ m b x n, complete (completeWrite t r v) s = { s with phy := m, idle := b, slot := x, draws := n } ∧
      (m = s.phy ∨ m = phyWrite s.phy t r v) := by
  rcases complete_cases (completeWrite t r v) s with ⟨he, -⟩ | ⟨w, ov, -, -, he⟩
  · exact ⟨s.phy, s.idle, s.slot, s.draws, he, .inl rfl⟩
  · obtain ⟨m, n, hw, hplain, hov⟩ := completeWrite_eq t r v ov s
    refine ⟨m, true, .empty, n, he.trans hw, ?_⟩
    cases ov with
    | false => exact .inr (hplain rfl).1
    | true =>
      rw [(hov rfl).1]
      exact (ite_eq_or_eq ..).symm

end

/-- The DATA field lies inside the command word. -/
theorem dataField_le {l : Layout} (h : l.Ok) : l.data + 16 ≤ 32 :=
  h.1 (l.data, 16) (by simp [Layout.fields])

/-- Settles O37: `completeRead` and `completeWrite` of a slot that is not overlapped. -/
theorem completionPerformsTheCommand : Obligations.CompletionPerformsTheCommand := by
  intro s w hm hs t r v
  refine ⟨?read, fun he => ?general, fun he => ?reference, fun i hi => ?write⟩
  case read =>
    obtain ⟨d, n, hr, hd, -⟩ := completeRead_eq t r false s
    obtain rfl := hd rfl
    exact ⟨n, fun i hi => by rw [exec_readForm t r hi, complete_of_full _ hs hm, hr]⟩
  case general => simp [memRead, he]
  case reference =>
    cases h : s.env with
    | general => exact absurd h he
    | sim => simp [memRead, h]
    | simStuck => simp [memRead, h]
  case write =>
    obtain ⟨m, n, hw, hmn, -⟩ := completeWrite_eq t r v false s
    obtain ⟨rfl, rfl⟩ := hmn rfl
    rw [exec_writeForm t r v hi, complete_of_full _ hs hm, hw]

/-- Settles O38: `completeRead` and `completeWrite` of an overlapped slot. -/
theorem overlappedCompletionIsFree : Obligations.OverlappedCompletionIsFree := by
  intro s w hm hs t r v
  refine ⟨fun i hi => ?read, fun i hi => ?write⟩
  case read =>
    obtain ⟨d, n, hr, -, hov⟩ := completeRead_eq t r true s
    obtain ⟨rfl, rfl⟩ := hov rfl
    rw [exec_readForm t r hi, complete_of_full _ hs hm, hr]
  case write =>
    obtain ⟨m, n, hw, -, hov⟩ := completeWrite_eq t r v true s
    obtain ⟨rfl, rfl⟩ := hov rfl
    rw [exec_writeForm t r v hi, complete_of_full _ hs hm, hw]

/-- Settles O39: the completion step waits, whatever the form. -/
theorem completionWaitsForTheBus : Obligations.CompletionWaitsForTheBus := by
  intro s h t r v
  refine ⟨?_, ?_, ?_, ?_⟩
  · rw [exec_readForm t r (.inl rfl), complete_of_waiting _ h]
  · rw [exec_writeForm t r v (.inl rfl), complete_of_waiting _ h]
  · rw [exec_readForm t r (.inr rfl), complete_of_waiting _ h]
  · rw [exec_writeForm t r v (.inr rfl), complete_of_waiting _ h]

/-- Settles O40: a read form sets the DATA field of CMD alone, a write form its location alone. -/
theorem commandFrame : Obligations.CommandFrame := by
  intro s u t r v i hi h
  have hi' : (i = .c22Read t r ∨ i = .c45Read t r) ∨ (i = .c22Write t r v ∨ i = .c45Write t r v) := by tauto
  rcases hi' with hr | hw
  · obtain ⟨c, b, x, n, he, hc⟩ := complete_completeRead t r s
    rw [exec_readForm t r hr, he] at h
    cases h
    refine ⟨rfl, rfl, rfl, rfl, rfl, rfl, rfl, rfl, rfl, rfl, rfl, rfl, rfl, rfl, rfl, rfl, rfl, rfl, rfl, rfl, rfl,
      fun hl b hb => ?bits, fun hl => ?high, fun _ _ => rfl, fun hw => ?notWrite⟩
    case bits =>
      rcases hc with rfl | ⟨d, rfl⟩
      · rfl
      · rw [getLsbD_setField _ _ _ _ (dataField_le hl), if_neg hb]
    case high =>
      rcases hc with rfl | ⟨d, rfl⟩
      · rfl
      · rw [hl]
        exact getField_setField_apart 0 16 16 d s.cmd (by decide) (.inl (by decide))
    case notWrite => rcases hr with rfl | rfl <;> simp at hw
  · obtain ⟨m, b, x, n, he, hm⟩ := complete_completeWrite t r v s
    rw [exec_writeForm t r v hw, he] at h
    cases h
    refine ⟨rfl, rfl, rfl, rfl, rfl, rfl, rfl, rfl, rfl, rfl, rfl, rfl, rfl, rfl, rfl, rfl, rfl, rfl, rfl, rfl, rfl,
      fun _ _ _ => rfl, fun _ => rfl, fun hr => ?notRead, fun _ => ⟨rfl, fun a hlo hhi => ?bytes⟩⟩
    case notRead => rcases hw with rfl | rfl <;> simp at hr
    case bytes =>
      rcases hm with rfl | rfl
      · rfl
      · exact readByte_phyWrite_other _ _ _ _ _ hlo hhi

/-- Settles O49: memory is written by `phyWrite` only. -/
theorem memoryFormKept : Obligations.MemoryFormKept :=
  fun _ _ hs h => step_keeps_of_effect (fun _ _ _ _ h => h) (fun _ _ e => e.phy_wf) hs h

/-- Settles O56: the completion is due, so the controller's fetch is the step's. -/
theorem simCompletesBeforeThePoll : Obligations.SimCompletesBeforeThePoll := by
  intro s w ov i he hf hm hs hd
  have hc : simCompletes s = true := by simp [simCompletes, completionEnabled, he, hf, hm, hs, slotFull]
  have hfetch : fetch s = fetchController s := if_pos hc
  exact step_of_fetch_run (hfetch.trans (fetchController_run hs hm hd))

end Sys2Proof.Machine

namespace Sys2Proof.Machine

/-! ### The command of a transaction (`41_command_encoder.md` R118) -/

/-- Under codes that meet `00_scope.md` R8 an encoded word decodes to the command form of its transaction. -/
theorem decodeCommand_of_encode {p : Params} (hp : p.Ok) {proto : BitVec 2} {op : Op} {t r : Addr} {v : Half} {w : Word}
    (he : encodeTransaction p proto op t r v = some w) :
    decodeCommand p w = .instr (commandForm proto op t r v) := by
  rcases encodeTransaction_cases p proto op t r v with ⟨-, -, h⟩ | ⟨rfl, rfl, h⟩ | ⟨rfl, rfl, h⟩ | ⟨rfl, rfl, h⟩ |
    ⟨rfl, rfl, h⟩ <;> rw [he] at h <;> cases h
  · exact decodeCommand_pack_c22Read hp t r
  · exact decodeCommand_pack_c22Write hp t r v
  · exact decodeCommand_pack_c45Read hp t r
  · exact decodeCommand_pack_c45Write hp t r v

theorem commandForm_read (proto : BitVec 2) (t r : Addr) (v : Half) :
    commandForm proto .read t r v = .c22Read t r ∨ commandForm proto .read t r v = .c45Read t r :=
  ite_eq_or_eq ..

theorem commandForm_write (proto : BitVec 2) (t r : Addr) (v : Half) :
    commandForm proto .write t r v = .c22Write t r v ∨ commandForm proto .write t r v = .c45Write t r v :=
  ite_eq_or_eq ..

/-! ### The completion of a transaction's command in SIM -/

/-- In SIM, with the engine's command in the slot before its poll, the step completes it: a Read's DATA is the content of
the location, a Write's location holds its data. -/
theorem step_simCompletion {s : State} {w : Word} (hok : s.codes.Ok) (he : s.env = .sim) (hf : s.fsm = .poll)
    (hm : s.mbe = true) (hs : s.slot = .full w false)
    (hw : encodeTransaction s.codes.params s.proto s.d.op s.d.tgt s.d.reg s.d.wdata = some w) :
    ∃ c m n, step s = .next { s with cmd := c, phy := m, idle := true, slot := .empty, draws := n } ∧
      (s.d.op = .read → m = s.phy ∧ getField s.codes.layout.data 16 c = phyRead s.phy s.d.tgt s.d.reg) ∧
      (s.d.op = .write → m = phyWrite s.phy s.d.tgt s.d.reg s.d.wdata) := by
  have hd := decodeCommand_of_encode hok hw
  have hstep := simCompletesBeforeThePoll s w false _ he hf hm hs hd
  obtain ⟨⟨n, hread⟩, -, hloc, hwrite⟩ := completionPerformsTheCommand s w hm hs s.d.tgt s.d.reg s.d.wdata
  obtain ⟨-, -, -, hl⟩ := hok
  cases ho : s.d.op with
  | read =>
    rw [ho, hread _ (commandForm_read ..)] at hstep
    refine ⟨_, s.phy, n, hstep, fun _ => ⟨rfl, ?_⟩, nofun⟩
    rw [getField_setField_self _ _ _ (dataField_le hl), hloc (by simp [he])]
  | write =>
    rw [ho, hwrite _ (commandForm_write ..)] at hstep
    exact ⟨s.cmd, _, s.draws, hstep, nofun, fun _ => rfl⟩

/-! ### The engine's transitions, state by state -/

section
variable {s : State} (d : Desc)

theorem engineStep_check (hf : s.fsm = .check) (hr : recognised s.proto = true) :
    engineStep d s = { s with fsm := .enable } := by
  simp [engineStep, hf, checkProtocol, hr, goto]

theorem engineStep_enable (hf : s.fsm = .enable) : engineStep d s = { s with mbe := true, fsm := .issue } := by
  simp [engineStep, hf, enableBus, goto, setMbe]

/-- Into an empty slot with the bus enabled the command goes unmarked (`20_memory.md` R66). -/
theorem engineStep_issue {w : Word} (hf : s.fsm = .issue) (hm : s.mbe = true) (hs : s.slot = .empty)
    (hw : encodeTransaction s.codes.params s.proto s.d.op s.d.tgt s.d.reg s.d.wdata = some w) :
    engineStep d s = { s with cmd := w, idle := false, slot := .full w false, fsm := .poll } := by
  simp [engineStep, hf, issueCommand, hw, startCommand, hs, hm, goto, setSlot, setIdle, setCmd]

theorem engineStep_poll (hf : s.fsm = .poll) (hi : s.idle = true) :
    engineStep d s = { s with polls := s.polls + 1, fsm := .capture } := by
  simp [engineStep, hf, pollIdle, hi, goto, countPoll]

theorem engineStep_capture (hf : s.fsm = .capture) :
    engineStep d s = { s with rdata := if s.d.op = .read then cmdData s else s.rdata, err := .ok, fsm := .release } := by
  cases ho : s.d.op <;> simp [engineStep, hf, captureData, ho, goto, setErr, setRdata]

theorem engineStep_release (hf : s.fsm = .release) :
    engineStep d s =
      { s with
        guard := .available, fsm := .idle, pend := tableErase s.pend s.owner,
        resp := tablePut s.resp s.owner (releaseResponse s) } := by
  simp [engineStep, hf, releaseGuard, goto, freeGuard, respond]

end

/-! ### The engine by itself -/

/-- Only the engine has a next turn, for the requester it serves. -/
def State.Alone (s : State) : Prop :=
  s.life = .ready ∧ s.agenda = [] ∧ waitingLifecycle s = [] ∧ s.cur = s.owner

section
variable {s : State} (h : s.Alone)
include h

/-- Then the engine takes its next transition. -/
theorem State.Alone.engine_step (hf : s.fsm ≠ .idle) (hc : simCompletes s = false) :
    ∃ d, step s = .next (engineStep d s) := by
  obtain ⟨hl, ha, hw, hcur⟩ := h
  have hserving : serving s.owner s = s := by rw [← hcur]; rfl
  simpa only [hserving] using step_engine hf hl ha hw hc

theorem State.Alone.step_check (hf : s.fsm = .check) (hr : recognised s.proto = true) :
    step s = .next { s with fsm := .enable } := by
  obtain ⟨d, hd⟩ := h.engine_step (by simp [hf]) (by simp [simCompletes, hf])
  rw [hd, engineStep_check d hf hr]

theorem State.Alone.step_enable (hf : s.fsm = .enable) :
    step s = .next { s with mbe := true, fsm := .issue } := by
  obtain ⟨d, hd⟩ := h.engine_step (by simp [hf]) (by simp [simCompletes, hf])
  rw [hd, engineStep_enable d hf]

theorem State.Alone.step_issue {w : Word} (hf : s.fsm = .issue) (hm : s.mbe = true) (hs : s.slot = .empty)
    (hw : encodeTransaction s.codes.params s.proto s.d.op s.d.tgt s.d.reg s.d.wdata = some w) :
    step s = .next { s with cmd := w, idle := false, slot := .full w false, fsm := .poll } := by
  obtain ⟨d, hd⟩ := h.engine_step (by simp [hf]) (by simp [simCompletes, hf])
  rw [hd, engineStep_issue d hf hm hs hw]

theorem State.Alone.step_poll (hf : s.fsm = .poll) (hs : s.slot = .empty) (hi : s.idle = true) :
    step s = .next { s with polls := s.polls + 1, fsm := .capture } := by
  obtain ⟨d, hd⟩ := h.engine_step (by simp [hf]) (by simp [simCompletes, completionEnabled, hs, slotFull])
  rw [hd, engineStep_poll d hf hi]

theorem State.Alone.step_capture (hf : s.fsm = .capture) :
    step s =
      .next { s with rdata := if s.d.op = .read then cmdData s else s.rdata, err := .ok, fsm := .release } := by
  obtain ⟨d, hd⟩ := h.engine_step (by simp [hf]) (by simp [simCompletes, hf])
  rw [hd, engineStep_capture d hf]

theorem State.Alone.step_release (hf : s.fsm = .release) :
    step s =
      .next { s with
        guard := .available, fsm := .idle, pend := tableErase s.pend s.owner,
        resp := tablePut s.resp s.owner (releaseResponse s) } := by
  obtain ⟨d, hd⟩ := h.engine_step (by simp [hf]) (by simp [simCompletes, hf])
  rw [hd, engineStep_release d hf]

/-- From `F_CHECK` to `F_POLL`: the command of the transaction is put into the slot. -/
theorem State.Alone.check_to_poll (hf : s.fsm = .check) (hr : recognised s.proto = true) (hs : s.slot = .empty) :
    ∃ w, encodeTransaction s.codes.params s.proto s.d.op s.d.tgt s.d.reg s.d.wdata = some w ∧
      runSteps 3 s = .next { s with mbe := true, cmd := w, idle := false, slot := .full w false, fsm := .poll } := by
  obtain ⟨w, hw⟩ := encodeTransaction_of_recognised s.codes.params hr s.d.op s.d.tgt s.d.reg s.d.wdata
  have henable : State.Alone { s with fsm := .enable } := h
  have hissue : State.Alone { s with mbe := true, fsm := .issue } := h
  refine ⟨w, hw, ?_⟩
  calc runSteps 3 s
    _ = runSteps 2 { s with fsm := .enable } := runSteps_step (h.step_check hf hr) 2
    _ = runSteps 1 { s with mbe := true, fsm := .issue } := runSteps_step (henable.step_enable rfl) 1
    _ = _ := runSteps_step (hissue.step_issue rfl rfl hs hw) 0

/-- From a poll that finds the command completed to the answer, which carries the DATA field of CMD if it is a Read's. -/
theorem State.Alone.poll_to_answer (hf : s.fsm = .poll) (hs : s.slot = .empty) (hi : s.idle = true) :
    ∃ x e, runSteps 3 s =
        .next { s with
          guard := .available, fsm := .idle, polls := s.polls + 1, rdata := x, err := .ok,
          pend := tableErase s.pend s.owner, resp := tablePut s.resp s.owner e } ∧
      (s.d.op = .read → e = { status := .ok, data := some (cmdData s) }) ∧
      (s.d.op = .write → e = { status := .ok, data := none }) := by
  have hcapture : State.Alone { s with polls := s.polls + 1, fsm := .capture } := h
  have hrelease : State.Alone
      { s with
        polls := s.polls + 1, rdata := if s.d.op = .read then cmdData s else s.rdata, err := .ok, fsm := .release } := h
  have hrun := calc runSteps 3 s
    _ = runSteps 2 { s with polls := s.polls + 1, fsm := .capture } := runSteps_step (h.step_poll hf hs hi) 2
    _ = runSteps 1 _ := runSteps_step (hcapture.step_capture rfl) 1
    _ = runSteps 0 _ := runSteps_step (hrelease.step_release rfl) 0
  exact ⟨_, _, hrun, fun ho => by simp [releaseResponse, ho], fun ho => by simp [releaseResponse, ho]⟩

end

/-! ### A transaction in SIM -/

/-- The state in which SIM has answered `e` to requester `q`: the engine and the controller are free, `m` is the memory, and
`d`, `c`, `x` and `n` are what the run left in the latches, CMD, RDATA and the count of draws. -/
def State.simServed (q : Nat) (e : Response) (m : Memory) (d : Desc) (c : Word) (x : Half) (n : Nat) (s : State) : State :=
  { s with
    guard := .available, owner := q, fsm := .idle, d := d, polls := 1, rdata := x, err := .ok,
    pend := tableErase s.pend q, resp := tablePut s.resp q e, mbe := true, idle := true, cmd := c, slot := .empty,
    phy := m, agenda := [], cur := q, draws := n }

theorem State.simServed_answered (q : Nat) (e : Response) (m : Memory) (d : Desc) (c : Word) (x : Half) (n : Nat)
    (s : State) : (s.simServed q e m d c x n).Answered q e :=
  ⟨rfl, rfl, tableFind_erase_self s.pend q, tableFind_put_self s.resp q e⟩

section
variable {s : State} {q : Nat} (he : s.env = .sim) (hok : s.codes.Ok) (hr : recognised s.proto = true)
  (hs : s.slot = .empty)
include he hok hr hs

/-- A transaction about to be served in SIM ends after 8 steps: acquire, check, enable, issue, the completion, the one poll,
capture, release. -/
theorem runSteps_sim_transaction {i : Instr} (hserve : s.AboutToServe q i) :
    ∃ e m d c x n, runSteps 8 s = .next (s.simServed q e m d c x n) ∧
      ((∃ t r, i = .rd t r ∧ m = s.phy ∧
          getField s.codes.layout.data 16 c = phyRead s.phy (lowAddr t) (lowAddr r) ∧
          e = { status := .ok, data := some (phyRead s.phy (lowAddr t) (lowAddr r)) }) ∨
        ∃ t r v, i = .wr t r v ∧ m = phyWrite s.phy (lowAddr t) (lowAddr r) v ∧
          e = { status := .ok, data := none }) := by
  obtain ⟨hl, hf, ha, hw, hi, req, hp, ht, hd⟩ := hserve
  obtain ⟨d, hacquire, hdesc⟩ := step_acquire hf hl ha hp ht hd hi
  obtain ⟨w, henc, hissue⟩ := State.Alone.check_to_poll
    (s := { s with guard := .held, owner := q, d := d, polls := 0, fsm := .check, agenda := [], cur := q })
    ⟨hl, rfl, hw, rfl⟩ rfl hr hs
  obtain ⟨c, m, n, hcomplete, hread, hwrite⟩ := step_simCompletion
    (s := { s with
      guard := .held, owner := q, d := d, polls := 0, fsm := .poll, agenda := [], cur := q, mbe := true, cmd := w,
      idle := false, slot := .full w false })
    hok he rfl rfl rfl henc
  obtain ⟨x, e, hanswer, heread, hewrite⟩ := State.Alone.poll_to_answer
    (s := { s with
      guard := .held, owner := q, d := d, polls := 0, fsm := .poll, agenda := [], cur := q, mbe := true, cmd := c,
      idle := true, slot := .empty, phy := m, draws := n })
    ⟨hl, rfl, hw, rfl⟩ rfl rfl rfl
  refine ⟨e, m, d, c, x, n, ?_, ?_⟩
  · rw [runSteps_step hacquire, runSteps_add hissue 4, runSteps_step hcomplete]
    exact hanswer
  · rcases hdesc with ⟨t, r, rfl, rfl⟩ | ⟨t, r, v, rfl, rfl⟩
    · obtain ⟨rfl, hc⟩ := hread rfl
      exact .inl ⟨t, r, rfl, rfl, hc, by rw [heread rfl, cmdData, hc]⟩
    · exact .inr ⟨t, r, v, rfl, hwrite rfl, hewrite rfl⟩

/-- A WRITE in SIM reaches its location (`42_transaction_engine.md` R132, `20_memory.md` R75). -/
theorem runSteps_sim_write {t r : BitVec 8} {v : Half} (hserve : s.AboutToServe q (.wr t r v)) :
    ∃ d c x n, runSteps 8 s =
      .next (s.simServed q { status := .ok, data := none } (phyWrite s.phy (lowAddr t) (lowAddr r) v) d c x n) := by
  obtain ⟨e, m, d, c, x, n, hrun, ⟨t', r', hi, -⟩ | ⟨t', r', v', hi, rfl, rfl⟩⟩ :=
    runSteps_sim_transaction he hok hr hs hserve
  · cases hi
  · cases hi
    exact ⟨d, c, x, n, hrun⟩

/-- A READ in SIM returns the content of its location (`42_transaction_engine.md` R131, `20_memory.md` R75). -/
theorem runSteps_sim_read {t r : BitVec 8} (hserve : s.AboutToServe q (.rd t r)) :
    ∃ d c x n, runSteps 8 s =
        .next (s.simServed q { status := .ok, data := some (phyRead s.phy (lowAddr t) (lowAddr r)) } s.phy d c x n) ∧
      getField s.codes.layout.data 16 c = phyRead s.phy (lowAddr t) (lowAddr r) := by
  obtain ⟨e, m, d, c, x, n, hrun, ⟨t', r', hi, rfl, hc, rfl⟩ | ⟨t', r', v', hi, -⟩⟩ :=
    runSteps_sim_transaction he hok hr hs hserve
  · cases hi
    exact ⟨d, c, x, n, hrun, hc⟩
  · cases hi

/-- A READ in SIM of a location that reads `v` is answered `v`. -/
theorem sim_read_answered {t r : BitVec 8} {v : Half} (hserve : s.AboutToServe q (.rd t r))
    (hv : phyRead s.phy (lowAddr t) (lowAddr r) = v) :
    ∃ u, runSteps 8 s = .next u ∧ u.Answered q { status := .ok, data := some v } := by
  obtain ⟨d, c, x, n, hrun, -⟩ := runSteps_sim_read he hok hr hs hserve
  exact ⟨_, hrun, hv ▸ State.simServed_answered ..⟩

end

/-! ### What every step of SIM keeps of a location -/

/-- A machine of SIM that is READY under a recognised protocol, with what holds of its slot. -/
structure State.SimRunning (s : State) : Prop where
  env   : s.env = .sim
  life  : s.life = .ready
  codes : s.codes.Ok
  proto : recognised s.proto = true
  slot  : s.SlotInv
  sim   : s.SimInv

/-- The location `{t, r}` reads `v`, and so does what a READ of it in flight has taken from it so far: the DATA field of CMD
from its completion on, RDATA at its release. -/
def State.Reads (t r : Addr) (v : Half) (s : State) : Prop :=
  phyRead s.phy t r = v ∧
    (s.d.op = .read → s.d.tgt = t → s.d.reg = r →
      (s.fsm = .poll → s.slot = .empty → cmdData s = v) ∧ (s.fsm = .capture → cmdData s = v) ∧
        (s.fsm = .release → s.err = .ok ∧ s.rdata = v))

section
variable {s u : State} {t r : Addr} {v : Half}

/-- No effect changes the environment. -/
theorem Effect.env_eq (e : Effect s u) : u.env = s.env := by
  cases e with
  | engine _ _ ht => cases ht <;> rfl
  | _ => rfl

theorem Effect.simRunning (e : Effect s u) (h : s.SimRunning) : u.SimRunning := by
  obtain ⟨hl, hp, -, -⟩ := e.config_of_ready h.life
  exact
    { env := e.env_eq.trans h.env
      life := hl
      codes := e.codes_eq ▸ h.codes
      proto := hp ▸ h.proto
      slot := e.slotInv h.slot
      sim := e.simInv h.slot (fun hn => absurd h.life hn) h.sim }

theorem State.SimRunning.rebook (h : s.SimRunning) (l : List Turn) (n q : Nat) : (rebook l n q s).SimRunning :=
  ⟨h.env, h.life, h.codes, h.proto, h.slot, h.sim⟩

theorem State.SimRunning.kept (h : s.SimRunning) (hs : step s = .next u) : u.SimRunning :=
  step_keeps_of_effect (fun l n q _ h => h.rebook l n q) (fun _ _ e => e.simRunning) h hs

/-- In `F_IDLE` the slot is empty. -/
theorem State.SimRunning.slot_empty (h : s.SimRunning) (hf : s.fsm = .idle) : s.slot = .empty :=
  h.sim.slot_empty h.env (by simp [hf])

/-- Away from the poll and the last steps of a READ, only the memory is spoken of. -/
theorem State.reads_of_early (hphy : phyRead u.phy t r = v) (hp : u.fsm = .poll → u.slot ≠ .empty)
    (hc : u.fsm ≠ .capture) (hr : u.fsm ≠ .release) : u.Reads t r v :=
  ⟨hphy, fun _ _ _ => ⟨fun hf hs => absurd hs (hp hf), fun hf => absurd hf hc, fun hf => absurd hf hr⟩⟩

/-- With the slot empty the engine moves on without touching the memory, and a READ takes over what CMD holds. -/
theorem Transition.reads (e : Transition s u) (hrun : s.SimRunning) (hc : simCompletes s = false) (hs : s.slot = .empty)
    (h : s.Reads t r v) : u.Reads t r v := by
  obtain ⟨hphy, hdata⟩ := h
  cases e with
  | checkPasses | enable | release => exact State.reads_of_early hphy (by simp) (by simp) (by simp)
  | checkFails _ hr => simp [hrun.proto] at hr
  | issue _ w m n _ _ hm =>
    obtain rfl := hm (by simp [hs, slotWrite])
    exact State.reads_of_early hphy (by simp) (by simp) (by simp)
  | issueFails _ he =>
    obtain ⟨w, hw⟩ := encodeTransaction_of_recognised s.codes.params hrun.proto s.d.op s.d.tgt s.d.reg s.d.wdata
    simp [hw] at he
  | pollIdle hf =>
    exact ⟨hphy, fun ho ht hr => ⟨nofun, fun _ => (hdata ho ht hr).1 hf hs, nofun⟩⟩
  | pollBusy hf hi => simp [hrun.sim.poll_finds_idle hrun.slot hrun.env hf hc] at hi
  | waitEnds hf => exact absurd hf (hrun.sim hrun.env).1
  | waitPolls hf => exact absurd hf (hrun.sim hrun.env).1
  | capture hf =>
    refine ⟨hphy, fun ho ht hr => ⟨nofun, nofun, fun _ => ⟨rfl, ?_⟩⟩⟩
    obtain ⟨-, hcapture, -⟩ := hdata ho ht hr
    exact (if_pos ho).trans (hcapture hf)

/-- With the slot empty no effect touches the memory. -/
theorem Effect.reads (e : Effect s u) (hrun : s.SimRunning) (hs : s.slot = .empty) (h : s.Reads t r v) : u.Reads t r v := by
  cases e with
  | acquire => exact State.reads_of_early h.1 (by simp) (by simp) (by simp)
  | engine _ hc ht => exact ht.reads hrun hc hs h
  | busDisable =>
    obtain ⟨hphy, hdata⟩ := h
    exact ⟨hphy, fun ho ht hr => ⟨fun hf _ => (hdata ho ht hr).1 hf hs, (hdata ho ht hr).2⟩⟩
  | initFails _ _ _ hl => simp [hrun.life] at hl
  | init _ _ _ _ hl => simp [hrun.life] at hl
  | readCompletes _ _ _ _ hfull => simp [hs] at hfull
  | writeCompletes _ _ _ _ _ _ _ hfull => simp [hs] at hfull
  | _ => exact h

/-- A command in the slot is completed by the next step: a Write of another location leaves this one, a Read of this one
gets its content. -/
theorem State.Reads.kept_full {w : Word} {ov : Bool} (h : s.Reads t r v) (hrun : s.SimRunning) (hn : ¬ s.Writing t r)
    (hs : s.slot = .full w ov) (hstep : step s = .next u) : u.Reads t r v := by
  obtain ⟨-, -, hfull⟩ := hrun.sim hrun.env
  obtain ⟨hf, hm, rfl, hw⟩ := hfull w ov hs
  obtain ⟨c, m, n, hc, hread, hwrite⟩ := step_simCompletion hrun.codes hrun.env hf hm hs hw
  rw [hc] at hstep
  cases hstep
  cases ho : s.d.op with
  | read =>
    obtain ⟨rfl, hdata⟩ := hread ho
    refine ⟨h.1, fun _ ht hr => ⟨fun _ _ => ?_, ?_, ?_⟩⟩
    · subst ht hr
      exact hdata.trans h.1
    · simp [hf]
    · simp [hf]
  | write =>
    have hne : ¬ (t = s.d.tgt ∧ r = s.d.reg) := fun ⟨ht, hr⟩ => hn ⟨by simp [hf], ho, ht.symm, hr.symm⟩
    refine ⟨?_, fun hread => by simp [ho] at hread⟩
    rw [hwrite ho]
    exact (phyRead_phyWrite_other _ _ _ _ _ _ hne).trans h.1

theorem State.Reads.kept (h : s.Reads t r v) (hrun : s.SimRunning) (hn : ¬ s.Writing t r) (hstep : step s = .next u) :
    u.Reads t r v := by
  cases hs : s.slot with
  | full w ov => exact h.kept_full hrun hn hs hstep
  | empty =>
    obtain ⟨l, n, q, e⟩ := step_effect hstep
    exact e.reads (hrun.rebook l n q) hs h

/-- What a location reads as stays so through any run in which no WRITE to it holds the guard (`20_memory.md` R62). -/
theorem reads_after_run {n : Nat} (hu : runSteps n s = .next u) (hn : NoWriteDuring t r n s) (hrun : s.SimRunning)
    (h : s.Reads t r v) : u.SimRunning ∧ u.Reads t r v := by
  induction n generalizing s with
  | zero =>
    cases hu
    exact ⟨hrun, h⟩
  | succ n ih =>
    obtain ⟨hnow, hlater⟩ := hn
    cases hs : step s with
    | next x =>
      rw [runSteps_step hs] at hu
      exact ih hu (hlater x hs) (hrun.kept hs) (h.kept hrun hnow hs)
    | fault e => simp [runSteps_succ, hs] at hu
    | refused e => simp [runSteps_succ, hs] at hu

/-- A READ at its release step answers with what it has taken. -/
theorem State.Reads.released (h : s.Reads t r v) (hf : s.fsm = .release) (ho : s.d.op = .read) (ht : s.d.tgt = t)
    (hr : s.d.reg = r) (hstep : step s = .next u) (hu : u.fsm = .idle) :
    tableFind u.resp s.owner = some { status := .ok, data := some v } := by
  obtain ⟨-, -, hrelease⟩ := h.2 ho ht hr
  obtain ⟨herr, hdata⟩ := hrelease hf
  obtain ⟨l, n, q, e⟩ := step_effect hstep
  have hresp : u.resp = tablePut s.resp s.owner (releaseResponse s) := by
    have hf' : (rebook l n q s).fsm = .release := hf
    cases e with
    | engine _ _ e =>
      cases e with
      | release => rfl
      | _ => simp at hu
    | acquire => simp at hu
    | _ => exact absurd (hf'.symm.trans hu) (by simp)
  rw [hresp, tableFind_put_self, releaseResponse, herr, ho, ← hdata]

end

/-! ### The round trip -/

section
variable {s : State} {q : Nat} {req : Request}

/-- No lifecycle operation waits if no pending request is one. -/
theorem waitingLifecycle_eq_nil : waitingLifecycle s = [] ↔ ∀ e ∈ s.pend, isLifecycle e.2 = false := by
  simp [waitingLifecycle]

/-- Posting a READ or WRITE leaves no lifecycle operation waiting where none was. -/
theorem waitingLifecycle_post (h : waitingLifecycle s = []) (hreq : isLifecycle req = false) :
    waitingLifecycle (post q req s) = [] := by
  rw [waitingLifecycle_eq_nil] at h ⊢
  intro e hmem
  rcases mem_tablePut _ _ _ hmem with rfl | hmem
  · exact hreq
  · exact h e hmem

/-- Nor does taking a request away. -/
theorem waitingLifecycle_erase {u : State} (h : waitingLifecycle s = []) (hu : u.pend = tableErase s.pend q) :
    waitingLifecycle u = [] := by
  rw [waitingLifecycle_eq_nil] at h ⊢
  exact fun e hmem => h e (List.mem_of_mem_filter (hu ▸ hmem))

/-- The turn in which a requester takes its response. -/
theorem step_takeResponse {rest : List Turn} (hc : simCompletes s = false) (ha : s.agenda = .takeResponse q :: rest) :
    step s = .next (takeResponse q (setAgenda rest s)) :=
  step_of_fetch_done (fetch_given_turn hc ha)

/-- A requester with both mailboxes empty submits an operation that has a meaning now (`42_transaction_engine.md` R133). -/
theorem step_submit {rest : List Turn} {i : Instr} (hc : simCompletes s = false)
    (ha : s.agenda = .submit q req :: rest) (hq : q < Config.nReq) (hp : tableFind s.pend q = none)
    (hr : tableFind s.resp q = none) (hd : decodeRequest req = .instr i) (hl : refusal i s.life = none)
    (hs : disableForbidden i s = false) : step s = .next (post q req (setAgenda rest s)) := by
  refine (step_of_fetch_done (fetch_given_turn hc ha)).trans ?_
  have hs' : disableForbidden i (setAgenda rest s) = false := hs
  simp [submit, hq, hp, hr, decode, hd, hl, hs']

end

/-- The request record of a READ (`30_encoding.md` R81). -/
abbrev readRequest (t r : BitVec 8) : Request := { bareRequest 0#3 with tgt := t, reg := r }

/-- A requester that has its answer takes it and submits a READ; it is then about to be served. -/
theorem runSteps_take_submit {s : State} {q : Nat} {t r : BitVec 8} {e : Response} (ha : s.Answered q e)
    (hl : s.life = .ready) (hq : q < Config.nReq) (hw : waitingLifecycle s = [])
    (hi : (Instr.rd t r).WellFormed) :
    ∃ b, runSteps 2 { s with agenda := [.takeResponse q, .submit q (readRequest t r), .engine q] } = .next b ∧
      b.AboutToServe q (.rd t r) ∧ b.env = s.env ∧ b.codes = s.codes ∧ b.proto = s.proto ∧ b.slot = s.slot ∧
      b.phy = s.phy := by
  obtain ⟨hf, -, hp, -⟩ := ha
  have hc : ∀ x : State, x.fsm = .idle → simCompletes x = false := fun x hx => by simp [simCompletes, hx]
  have htake := step_takeResponse (hc _ hf)
    (s := { s with agenda := [.takeResponse q, .submit q (readRequest t r), .engine q] }) rfl
  have hsubmit := step_submit (hc _ hf) (i := .rd t r)
    (s := takeResponse q { s with agenda := [.submit q (readRequest t r), .engine q] }) rfl hq hp
    (tableFind_erase_self s.resp q) rfl (refusal_rd_none.mpr ⟨hl, hi⟩) rfl
  refine ⟨_, (runSteps_step htake 1).trans (runSteps_step hsubmit 0), ⟨hl, hf, rfl, ?_, hi, ?_⟩, rfl, rfl, rfl, rfl, rfl⟩
  · exact waitingLifecycle_post hw rfl
  · exact ⟨readRequest t r, tableFind_put_self s.pend q _, rfl, rfl⟩

/-- Settles O35: the WRITE reaches its location, which no step then changes while no WRITE to it holds the guard
(`reads_after_run`), and a READ returns what the location holds. -/
theorem simRoundTrip : Obligations.SimRoundTrip := by
  intro s q t r v hserve he hok hr hs hq
  have ⟨hl, _, _, hw, hi, _⟩ := hserve
  obtain ⟨d, c, x, n, hrun⟩ := runSteps_sim_write he hok hr hs hserve
  have hans := s.simServed_answered q { status := .ok, data := none } (phyWrite s.phy (lowAddr t) (lowAddr r) v) d c x n
  refine ⟨_, hrun, hans, phyRead_phyWrite_self .., ?again, fun l k w hk hn => ?later⟩
  case again =>
    obtain ⟨b, hb, hread, hbe, hbc, hbp, hbs, hbphy⟩ :=
      runSteps_take_submit hans hl hq (waitingLifecycle_erase hw rfl) hi
    have hv : phyRead b.phy (lowAddr t) (lowAddr r) = v := by
      rw [hbphy]
      exact phyRead_phyWrite_self ..
    obtain ⟨u, hu, hua⟩ := sim_read_answered (hbe.trans he) (hbc ▸ hok) (hbp ▸ hr) hbs hread hv
    exact ⟨u, (runSteps_add hb 8).trans hu, hua⟩
  case later =>
    obtain ⟨hrunning, hreads⟩ := reads_after_run hk hn
      ⟨he, hl, hok, hr, slotInv_of_empty rfl rfl, simInv_of_slot_empty rfl nofun nofun⟩
      (State.reads_of_early (phyRead_phyWrite_self ..) nofun nofun nofun)
    refine ⟨hreads.1, fun hf ho ht hr x hx hxf => hreads.released hf ho ht hr hx hxf, fun q' hserve' => ?_⟩
    exact sim_read_answered (s := { w with agenda := [.engine q'] }) hrunning.env hrunning.codes hrunning.proto
      (hrunning.slot_empty hserve'.2.1) hserve' hreads.1

end Sys2Proof.Machine

/-!
PROOFS. The statements of `30_encoding.md`: when a command word is of a form, what encoding a decoded code gives back, and
which codes and operands are rejected.
-/

namespace Sys2Proof

/-! ### When a command word is of a form -/

section
variable {p : Params} {w : Word}

/-- What a command word that decodes shows in its fields, whatever the parameters (`30_encoding.md` R90). -/
theorem fields_of_decodeCommand {i : Instr} (h : decodeCommand p w = .instr i) :
    (getField p.layout.sof 2 w = p.sofC22 ∧ getField p.layout.op 2 w = p.opC22Read ∧
      getField p.layout.data 16 w = 0#16 ∧ i = .c22Read (getField p.layout.tgt 5 w) (getField p.layout.reg 5 w)) ∨
    (getField p.layout.sof 2 w = p.sofC22 ∧ getField p.layout.op 2 w = p.opC22Write ∧
      i = .c22Write (getField p.layout.tgt 5 w) (getField p.layout.reg 5 w) (getField p.layout.data 16 w)) ∨
    (getField p.layout.sof 2 w = p.sofC45 ∧ getField p.layout.op 2 w = p.opC45Read ∧
      getField p.layout.data 16 w = 0#16 ∧ i = .c45Read (getField p.layout.tgt 5 w) (getField p.layout.reg 5 w)) ∨
    (getField p.layout.sof 2 w = p.sofC45 ∧ getField p.layout.op 2 w = p.opC45Write ∧
      i = .c45Write (getField p.layout.tgt 5 w) (getField p.layout.reg 5 w) (getField p.layout.data 16 w)) := by
  simp only [decodeCommand] at h
  split_ifs at h with hs ho hv ho' hs' ho hv ho' <;> cases h
  · exact .inl ⟨hs, ho, hv, rfl⟩
  · exact .inr (.inl ⟨hs, ho', rfl⟩)
  · exact .inr (.inr (.inl ⟨hs', ho, hv, rfl⟩))
  · exact .inr (.inr (.inr ⟨hs', ho', rfl⟩))

/-- A word that decodes to no form is rejected. -/
theorem decodeCommand_rejects_iff :
    decodeCommand p w = .reject (.reservedCommand w) ↔ ¬ ∃ i, decodeCommand p w = .instr i := by
  rcases decodeCommand_cases p w with ⟨t, r, h⟩ | ⟨t, r, v, h⟩ | ⟨t, r, h⟩ | ⟨t, r, v, h⟩ | h <;> simp [h]

variable {t r : Addr} {v : Half}

/-- The Clause 22 read form (`41_command_encoder.md` R112). -/
theorem decodeCommand_c22Read_iff : decodeCommand p w = .instr (.c22Read t r) ↔
    getField p.layout.sof 2 w = p.sofC22 ∧ getField p.layout.op 2 w = p.opC22Read ∧
      getField p.layout.data 16 w = 0#16 ∧ getField p.layout.tgt 5 w = t ∧ getField p.layout.reg 5 w = r := by
  constructor
  · intro h
    rcases fields_of_decodeCommand h with ⟨hs, ho, hv, hi⟩ | ⟨-, -, hi⟩ | ⟨-, -, -, hi⟩ | ⟨-, -, hi⟩ <;> cases hi
    exact ⟨hs, ho, hv, rfl, rfl⟩
  · rintro ⟨hs, ho, hv, rfl, rfl⟩
    simp only [decodeCommand, hs, ho, hv, if_true]

variable (hp : p.Ok)
include hp

/-- The Clause 22 write form (`41_command_encoder.md` R113): its code is not the read code (`00_scope.md` R8). -/
theorem decodeCommand_c22Write_iff : decodeCommand p w = .instr (.c22Write t r v) ↔
    getField p.layout.sof 2 w = p.sofC22 ∧ getField p.layout.op 2 w = p.opC22Write ∧
      getField p.layout.data 16 w = v ∧ getField p.layout.tgt 5 w = t ∧ getField p.layout.reg 5 w = r := by
  obtain ⟨h22, -, -, -⟩ := hp
  constructor
  · intro h
    rcases fields_of_decodeCommand h with ⟨-, -, -, hi⟩ | ⟨hs, ho, hi⟩ | ⟨-, -, -, hi⟩ | ⟨-, -, hi⟩ <;> cases hi
    exact ⟨hs, ho, rfl, rfl, rfl⟩
  · rintro ⟨hs, ho, rfl, rfl, rfl⟩
    simp only [decodeCommand, hs, ho, h22.symm, if_true, if_false]

/-- The Clause 45 read form (`41_command_encoder.md` R114): its start field is not Clause 22's (`00_scope.md` R8). -/
theorem decodeCommand_c45Read_iff : decodeCommand p w = .instr (.c45Read t r) ↔
    getField p.layout.sof 2 w = p.sofC45 ∧ getField p.layout.op 2 w = p.opC45Read ∧
      getField p.layout.data 16 w = 0#16 ∧ getField p.layout.tgt 5 w = t ∧ getField p.layout.reg 5 w = r := by
  obtain ⟨-, -, hsofs, -⟩ := hp
  constructor
  · intro h
    rcases fields_of_decodeCommand h with ⟨-, -, -, hi⟩ | ⟨-, -, hi⟩ | ⟨hs, ho, hv, hi⟩ | ⟨-, -, hi⟩ <;> cases hi
    exact ⟨hs, ho, hv, rfl, rfl⟩
  · rintro ⟨hs, ho, hv, rfl, rfl⟩
    simp only [decodeCommand, hs, ho, hv, hsofs.symm, if_true, if_false]

/-- The Clause 45 write form (`41_command_encoder.md` R115): start field and code differ from those of the other forms. -/
theorem decodeCommand_c45Write_iff : decodeCommand p w = .instr (.c45Write t r v) ↔
    getField p.layout.sof 2 w = p.sofC45 ∧ getField p.layout.op 2 w = p.opC45Write ∧
      getField p.layout.data 16 w = v ∧ getField p.layout.tgt 5 w = t ∧ getField p.layout.reg 5 w = r := by
  obtain ⟨-, h45, hsofs, -⟩ := hp
  constructor
  · intro h
    rcases fields_of_decodeCommand h with ⟨-, -, -, hi⟩ | ⟨-, -, hi⟩ | ⟨-, -, -, hi⟩ | ⟨hs, ho, hi⟩ <;> cases hi
    exact ⟨hs, ho, rfl, rfl, rfl⟩
  · rintro ⟨hs, ho, rfl, rfl, rfl⟩
    simp only [decodeCommand, hs, ho, hsofs.symm, h45.symm, if_true, if_false]

/-- A word decodes exactly when its start field is a protocol's and its code one of that protocol, with zero DATA in a read
word. -/
theorem decodeCommand_instr_iff : (∃ i, decodeCommand p w = .instr i) ↔
    (getField p.layout.sof 2 w = p.sofC22 ∧
        (getField p.layout.op 2 w = p.opC22Read ∧ getField p.layout.data 16 w = 0#16 ∨
          getField p.layout.op 2 w = p.opC22Write)) ∨
      (getField p.layout.sof 2 w = p.sofC45 ∧
        (getField p.layout.op 2 w = p.opC45Read ∧ getField p.layout.data 16 w = 0#16 ∨
          getField p.layout.op 2 w = p.opC45Write)) := by
  constructor
  · rintro ⟨i, h⟩
    rcases fields_of_decodeCommand h with ⟨hs, ho, hv, -⟩ | ⟨hs, ho, -⟩ | ⟨hs, ho, hv, -⟩ | ⟨hs, ho, -⟩
    · exact .inl ⟨hs, .inl ⟨ho, hv⟩⟩
    · exact .inl ⟨hs, .inr ho⟩
    · exact .inr ⟨hs, .inl ⟨ho, hv⟩⟩
    · exact .inr ⟨hs, .inr ho⟩
  · rintro (⟨hs, ⟨ho, hv⟩ | ho⟩ | ⟨hs, ⟨ho, hv⟩ | ho⟩)
    · exact ⟨_, decodeCommand_c22Read_iff.mpr ⟨hs, ho, hv, rfl, rfl⟩⟩
    · exact ⟨_, (decodeCommand_c22Write_iff hp).mpr ⟨hs, ho, rfl, rfl, rfl⟩⟩
    · exact ⟨_, (decodeCommand_c45Read_iff hp).mpr ⟨hs, ho, hv, rfl, rfl⟩⟩
    · exact ⟨_, (decodeCommand_c45Write_iff hp).mpr ⟨hs, ho, rfl, rfl, rfl⟩⟩

end

/-! ### The fields of a word at the default positions -/

section
variable (w w' : Word)

/-- Reading a field of an AND reads it of both sides. -/
theorem getField_and (pos len : Nat) : getField pos len (w &&& w') = getField pos len w &&& getField pos len w' := by
  apply BitVec.eq_of_getLsbD_eq
  intro i hi
  simp only [getLsbD_getField, hi, BitVec.getLsbD_and, decide_true, Bool.true_and]

/-- A word is its six fields (`30_encoding.md` R84). -/
theorem word_eq_iff_fields : w = w' ↔
    getField 30 2 w = getField 30 2 w' ∧ getField 28 2 w = getField 28 2 w' ∧ getField 23 5 w = getField 23 5 w' ∧
      getField 18 5 w = getField 18 5 w' ∧ getField 16 2 w = getField 16 2 w' ∧ getField 0 16 w = getField 0 16 w' := by
  constructor
  · rintro rfl
    exact ⟨rfl, rfl, rfl, rfl, rfl, rfl⟩
  · rintro ⟨hsof, hop, htgt, hreg, hta, hdata⟩
    have hbit {pos len : Nat} (h : getField pos len w = getField pos len w') (i : Nat) (hi : pos ≤ i ∧ i < pos + len) :
        w.getLsbD i = w'.getLsbD i := by
      have hb := congrArg (BitVec.getLsbD · (i - pos)) h
      simpa only [getLsbD_getField, show i - pos < len by omega, Nat.add_sub_cancel' hi.1, decide_true,
        Bool.true_and] using hb
    apply BitVec.eq_of_getLsbD_eq
    intro i hi
    rcases (by omega : i < 16 ∨ (16 ≤ i ∧ i < 18) ∨ (18 ≤ i ∧ i < 23) ∨ (23 ≤ i ∧ i < 28) ∨ (28 ≤ i ∧ i < 30) ∨ 30 ≤ i)
      with h | h | h | h | h | h
    · exact hbit hdata i (by omega)
    · exact hbit hta i h
    · exact hbit hreg i h
    · exact hbit htgt i h
    · exact hbit hop i h
    · exact hbit hsof i (by omega)

/-- Packing a word's own fields replaces its TA field and nothing else. -/
theorem packCommand_of_fields {p : Params} (hl : p.layout = defaultLayout) {sof opc : BitVec 2} {v : Half}
    (hs : getField p.layout.sof 2 w = sof) (ho : getField p.layout.op 2 w = opc)
    (hv : getField p.layout.data 16 w = v) :
    packCommand p sof opc (getField p.layout.tgt 5 w) (getField p.layout.reg 5 w) v = setField 16 p.taCode w := by
  subst hs ho hv
  obtain ⟨hsof, hop, htgt, hreg, hta, hdata⟩ := packCommand_fields p (hl ▸ defaultLayout_ok)
    (getField p.layout.sof 2 w) (getField p.layout.op 2 w) (getField p.layout.tgt 5 w) (getField p.layout.reg 5 w)
    (getField p.layout.data 16 w)
  have apart {q len : Nat} (h : 16 + 2 ≤ q ∨ q + len ≤ 16) :
      getField q len w = getField q len (setField 16 p.taCode w) :=
    (getField_setField_apart 16 q len p.taCode w (by decide) h).symm
  simp only [hl] at hsof hop htgt hreg hta hdata ⊢
  exact (word_eq_iff_fields ..).mpr ⟨hsof.trans (apart (by decide)), hop.trans (apart (by decide)),
    htgt.trans (apart (by decide)), hreg.trans (apart (by decide)),
    hta.trans (getField_setField_self 16 p.taCode w (by decide)).symm, hdata.trans (apart (by decide))⟩

/-- The fields of a word written as a start field, an operation code and the 28 bits below them. -/
theorem getField_append (sof opc : BitVec 2) (x : BitVec 28) :
    getField 30 2 (sof ++ opc ++ x : Word) = sof ∧ getField 28 2 (sof ++ opc ++ x : Word) = opc ∧
      ∀ pos len, pos + len ≤ 28 → getField pos len (sof ++ opc ++ x : Word) = x.extractLsb' pos len := by
  have high (pos : Nat) (h : 28 ≤ pos) :
      getField pos 2 (sof ++ opc ++ x : Word) = (sof ++ opc).extractLsb' (pos - 28) 2 :=
    BitVec.extractLsb'_append_eq_of_le h
  exact ⟨(high 30 (by decide)).trans BitVec.extractLsb'_append_eq_left,
    (high 28 (by decide)).trans BitVec.extractLsb'_append_eq_right,
    fun _ _ h => BitVec.extractLsb'_append_eq_of_add_le h⟩

/-- What is left under a mask that keeps the start field, the operation code and the bits `m` of DATA. -/
theorem and_formMask_iff {mask : Word} {m : Half} (sof opc : BitVec 2)
    (hmask : getField 30 2 mask = BitVec.allOnes 2 ∧ getField 28 2 mask = BitVec.allOnes 2 ∧
      getField 23 5 mask = 0#5 ∧ getField 18 5 mask = 0#5 ∧ getField 16 2 mask = 0#2 ∧ getField 0 16 mask = m) :
    w &&& mask = (sof ++ opc ++ 0#28 : Word) ↔
      getField 30 2 w = sof ∧ getField 28 2 w = opc ∧ getField 0 16 w &&& m = 0#16 := by
  obtain ⟨hsof, hop, hlow⟩ := getField_append sof opc 0#28
  simp [word_eq_iff_fields, getField_and, hmask, hsof, hop, hlow, -BitVec.reduceAllOnes]

/-- The match of a read form (`30_encoding.md` R90): start field, operation code and zero DATA. -/
theorem readMask_iff (sof opc : BitVec 2) : w &&& 0xF000FFFF#32 = (sof ++ opc ++ 0#28 : Word) ↔
    getField 30 2 w = sof ∧ getField 28 2 w = opc ∧ getField 0 16 w = 0#16 := by
  rw [and_formMask_iff w sof opc (m := BitVec.allOnes 16) (by decide), BitVec.and_allOnes]

/-- The match of a write form (`30_encoding.md` R90): start field and operation code. -/
theorem writeMask_iff (sof opc : BitVec 2) : w &&& 0xF0000000#32 = (sof ++ opc ++ 0#28 : Word) ↔
    getField 30 2 w = sof ∧ getField 28 2 w = opc := by
  rw [and_formMask_iff w sof opc (m := 0#16) (by decide), BitVec.and_zero, eq_self, and_true]

end

/-! ### Encoding after decoding -/

/-- Encoding the form a word decodes to packs the word's own fields (`30_encoding.md` R84), TA replaced by `TA_CODE`. -/
theorem encode_of_decodeCommand {p : Params} {w : Word} {i : Instr} (hl : p.layout = defaultLayout)
    (h : decodeCommand p w = .instr i) : encode p i = .command (setField 16 p.taCode w) := by
  rcases fields_of_decodeCommand h with ⟨hs, ho, hv, rfl⟩ | ⟨hs, ho, rfl⟩ | ⟨hs, ho, hv, rfl⟩ | ⟨hs, ho, rfl⟩
  · exact congrArg Code.command (packCommand_of_fields w hl hs ho hv)
  · exact congrArg Code.command (packCommand_of_fields w hl hs ho rfl)
  · exact congrArg Code.command (packCommand_of_fields w hl hs ho hv)
  · exact congrArg Code.command (packCommand_of_fields w hl hs ho rfl)

/-- Encoding the operation of a request gives the request with its unused fields zero (`30_encoding.md` R81). -/
theorem encode_of_decodeRequest (p : Params) {q : Request} {i : Instr} (h : decodeRequest q = .instr i) :
    encode p i = .request (usedFields q) := by
  rcases decodeRequest_cases q with ⟨ho, hd⟩ | ⟨ho, hd⟩ | ⟨ho, hd⟩ | ⟨ho, hd⟩ | ⟨ho, hd⟩ | ⟨-, hd⟩ <;>
    rw [hd] at h <;> cases h <;> simp [encode, usedFields, ho]

/-- Encoding the tier of a divisor code gives the code (`30_encoding.md` R91). -/
theorem encode_of_decodeDivisor (p : Params) {d : BitVec 3} {i : Instr} (h : decodeDivisor d = .instr i) :
    encode p i = .divisor d := by
  rcases decodeDivisor_cases d with ⟨rfl, hd⟩ | ⟨rfl, hd⟩ | ⟨rfl, hd⟩ | ⟨rfl, hd⟩ | ⟨rfl, hd⟩ | ⟨rfl, hd⟩ | ⟨-, hd⟩ <;>
    rw [hd] at h <;> cases h <;> rfl

/-- Settles O2: in each of the three code spaces the decoder kept every field that the encoder places. -/
theorem encodeOfDecode : Obligations.EncodeOfDecode :=
  ⟨fun _ _ _ hl h => encode_of_decodeCommand hl h, fun p _ _ h => encode_of_decodeRequest p h,
    fun p _ _ h => encode_of_decodeDivisor p h⟩

/-- Settles O3: a form's match says what its mask leaves of the word, which is what selects the form. -/
theorem formsMatchMasks : Obligations.FormsMatchMasks := by
  intro p hp hl w
  have hpos : p.layout.sof = 30 ∧ p.layout.op = 28 ∧ p.layout.data = 0 := by rw [hl]; exact ⟨rfl, rfl, rfl⟩
  obtain ⟨hsof, hop, hdata⟩ := hpos
  refine ⟨?_, ?_, ?_, ?_⟩
  · simp [decodeCommand_c22Read_iff, readMask_iff, hsof, hop, hdata]
  · simp [decodeCommand_c22Write_iff hp, writeMask_iff, hsof, hop]
  · simp [decodeCommand_c45Read_iff hp, readMask_iff, hsof, hop, hdata]
  · simp [decodeCommand_c45Write_iff hp, writeMask_iff, hsof, hop]

/-! ### Reserved codes -/

/-- The reserved operations of a request (`30_encoding.md` R93 (a)). -/
theorem decodeRequest_rejects_iff (q : Request) :
    5 ≤ q.op.toNat ↔ decodeRequest q = .reject (.reservedOperation q.op) := by
  rcases decodeRequest_cases q with ⟨ho, hd⟩ | ⟨ho, hd⟩ | ⟨ho, hd⟩ | ⟨ho, hd⟩ | ⟨ho, hd⟩ | ⟨ho, hd⟩
  case inr.inr.inr.inr.inr => exact iff_of_true ho hd
  all_goals simp [hd, ho]

/-- The reserved divisor codes (`30_encoding.md` R93 (f)). -/
theorem decodeDivisor_rejects_iff (d : BitVec 3) :
    6 ≤ d.toNat ↔ decodeDivisor d = .reject (.reservedDivisor d) := by
  revert d; decide

/-- Settles O4: requests and divisor codes are told by their number; a command word is rejected when it decodes to no form. -/
theorem reservedCodesRejected : Obligations.ReservedCodesRejected :=
  ⟨decodeRequest_rejects_iff, decodeDivisor_rejects_iff,
    fun _ hp _ => decodeCommand_rejects_iff.trans (not_congr (decodeCommand_instr_iff hp))⟩

/-! ### Words written out -/

section
variable {p : Params} (hp : p.Ok) (hl : p.layout = defaultLayout)
include hp hl

/-- One word of each form, under the configuration's own codes (`30_encoding.md` R86). -/
theorem writtenOutForms_decode :
    decode p (.command (p.sofC22 ++ p.opC22Read ++ 0b00101_00011_10_0000000000000000#28 : Word)) =
      .instr (.c22Read 5 3) ∧
    decode p (.command (p.sofC22 ++ p.opC22Write ++ 0b00101_00011_10_1010101111001101#28 : Word)) =
      .instr (.c22Write 5 3 0xABCD) ∧
    decode p (.command (p.sofC45 ++ p.opC45Read ++ 0b11111_11111_10_0000000000000000#28 : Word)) =
      .instr (.c45Read 31 31) ∧
    decode p (.command (p.sofC45 ++ p.opC45Write ++ 0b00001_00000_00_0001000100010001#28 : Word)) =
      .instr (.c45Write 1 0 0x1111) := by
  have hfields (sof opc : BitVec 2) (x : BitVec 28) :
      getField p.layout.sof 2 (sof ++ opc ++ x : Word) = sof ∧ getField p.layout.op 2 (sof ++ opc ++ x : Word) = opc ∧
      getField p.layout.data 16 (sof ++ opc ++ x : Word) = x.extractLsb' 0 16 ∧
      getField p.layout.tgt 5 (sof ++ opc ++ x : Word) = x.extractLsb' 23 5 ∧
      getField p.layout.reg 5 (sof ++ opc ++ x : Word) = x.extractLsb' 18 5 := by
    obtain ⟨hsof, hop, hlow⟩ := getField_append sof opc x
    rw [hl]
    exact ⟨hsof, hop, hlow _ _ (by decide), hlow _ _ (by decide), hlow _ _ (by decide)⟩
  exact ⟨decodeCommand_c22Read_iff.mpr (hfields ..), (decodeCommand_c22Write_iff hp).mpr (hfields ..),
    (decodeCommand_c45Read_iff hp).mpr (hfields ..), (decodeCommand_c45Write_iff hp).mpr (hfields ..)⟩

end

/-- `TA_CODE` is not read: parameters with the default codes decode every command word alike (`20_memory.md` R69). -/
theorem decode_command_of_defaultCodes {p : Params} (h : p.toCodes = defaultCodes) (w : Word) :
    decode p (.command w) = decode params (.command w) := by
  have hparams : params.toCodes = defaultCodes := rfl
  simp only [decode, decodeCommand, h, hparams]

/-- Settles O5: the bits below start field and operation code are those of the operands; under the default codes nothing of
the parameters is left open. -/
theorem writtenOutCodesDecode : Obligations.WrittenOutCodesDecode := by
  refine ⟨fun p hp hl => writtenOutForms_decode hp hl, fun p hc => ?_, fun p => ⟨rfl, rfl, rfl⟩⟩
  simp only [decode_command_of_defaultCodes hc]
  decide

end Sys2Proof

namespace Sys2Proof.Machine

/-! ### Operands that are refused -/

/-- Every instruction answers the refusal it meets. -/
theorem exec_of_refusal {s : State} {i : Instr} {e : Refusal} (h : refusal i s.life = some e) : exec i s = .refused e := by
  cases i with
  | rd t r => simp only [exec, execRd, h]
  | wr t r v => simp only [exec, execWr, h]
  | ben => simp only [exec, execBen, h]
  | bdis => simp only [exec, execBdis, h]
  | init f p => simp only [exec, execInit, h]
  | _ => cases h

/-- An address of 32 or more is out of range (`30_encoding.md` R82). -/
theorem addressRefusal_of_ge {t r : BitVec 8} (h : 32 ≤ t.toNat ∨ 32 ≤ r.toNat) :
    addressRefusal t r = some .addressOutOfRange :=
  if_neg (by omega)

/-- Settles O14: `LIFE` lets the operation have a meaning, so the refusal is that of its operands. -/
theorem illFormedOperandsRefused : Obligations.IllFormedOperandsRefused := by
  refine ⟨fun s t r hl ha => ⟨?rd, fun v => ?wr⟩, fun s p hl => ?init⟩
  case rd => exact exec_of_refusal (by rw [hl]; exact addressRefusal_of_ge ha)
  case wr => exact exec_of_refusal (by rw [hl]; exact addressRefusal_of_ge ha)
  case init => exact exec_of_refusal (by rw [hl]; rfl)

/-! ### A command word placed -/

/-- Placing 32 bits places a command word. -/
theorem withFetchWord_command (s : State) (w : Nat) : s.withFetchWord 32 w =
    { s with
      mbe := true, idle := false, cmd := BitVec.ofNat 32 w, slot := .full (BitVec.ofNat 32 w) false,
      env := if s.env = .simStuck then .general else s.env, agenda := .controller :: s.agenda } := rfl

/-- Once a command is placed the environment is one in which the controller completes commands. -/
theorem withFetchWord_env (s : State) (w : Nat) : (s.withFetchWord 32 w).env ≠ .simStuck := by
  rw [withFetchWord_command]
  dsimp only
  split
  · nofun
  · assumption

/-- Settles O60: where SIM's completion is due the controller's fetch is the step's; elsewhere the controller's turn, first in
the agenda, fetches the placed word (`stepRunsTheFetchedInstruction`). -/
theorem placedWordIsRunNext : Obligations.PlacedWordIsRunNext := by
  rintro s p w i hd rfl
  refine ⟨withFetchWord_command s w, fun hc => ?due, fun hc => ?turn, fun hcodes => ?table⟩
  case due =>
    have hfetch : fetch (s.withFetchWord 32 w) = fetchController (s.withFetchWord 32 w) := if_pos hc
    exact step_of_fetch_run (hfetch.trans (fetchController_run rfl rfl hd))
  case turn =>
    obtain ⟨-, -, -, -, hcontroller, -⟩ := stepRunsTheFetchedInstruction _ s.agenda hc
    exact hcontroller _ _ i rfl (withFetchWord_env s w) rfl rfl hd
  case table =>
    rw [hcodes] at hd
    have htable : decode params (tableCode 32 w) = .instr i := hd
    rw [decodeTableWord, htable]

end Sys2Proof.Machine

/-!
PROOFS. The statements of `40_clock_divisor.md`: DIVSEL chooses the tier of least bound, which bounds the MDIO clock; and what
the divisor codes do.
-/

namespace Sys2Proof.Machine

/-! ### The selector -/

section
variable {f : BitVec 32} {x : Tier}

/-- The bound of a tier is the frequency that its divisor turns into 2.5 MHz (`40_clock_divisor.md` R101). -/
theorem tierBound_eq_mul_tierDivisor (x : Tier) : tierBound x = 2500000 * tierDivisor x := by
  cases x <;> rfl

theorem tierDivisor_pos (x : Tier) : 0 < tierDivisor x := by
  cases x <;> decide

/-- Each bound selects its own tier (`40_clock_divisor.md` R106 (a)). -/
theorem divsel_tierBound (x : Tier) : divsel (BitVec.ofNat 32 (tierBound x)) = some x := by
  cases x <;> rfl

/-- Different tiers have different bounds: the bound selects the tier. -/
theorem tierBound_injective : Function.Injective tierBound := fun x y h =>
  Option.some.inj ((divsel_tierBound x).symm.trans (h ▸ divsel_tierBound y))

/-- Codes rise with the bounds (`40_clock_divisor.md` R101). -/
theorem tierCode_le_iff (x y : Tier) : (tierCode x).toNat ≤ (tierCode y).toNat ↔ tierBound x ≤ tierBound y := by
  cases x <;> cases y <;> decide

/-- Below every tier but the first there is one of at least half its bound (`40_clock_divisor.md` R101). -/
theorem exists_tier_below (h : x ≠ .div8) : ∃ y, tierBound y < tierBound x ∧ tierBound x ≤ 2 * tierBound y := by
  cases x with
  | div8 => exact absurd rfl h
  | div16 => exact ⟨.div8, by decide⟩
  | div32 => exact ⟨.div16, by decide⟩
  | div48 => exact ⟨.div32, by decide⟩
  | div64 => exact ⟨.div48, by decide⟩
  | div96 => exact ⟨.div64, by decide⟩

/-- Only the last bound limits what is covered (`40_clock_divisor.md` R102). -/
theorem divsel_eq_none_iff (f : BitVec 32) : divsel f = none ↔ 240000000 < f.toNat := by
  rcases divsel_cases f with ⟨h, hd⟩ | ⟨-, h, hd⟩ | ⟨-, h, hd⟩ | ⟨-, h, hd⟩ | ⟨-, h, hd⟩ | ⟨-, h, hd⟩ | ⟨h, hd⟩
  case inr.inr.inr.inr.inr.inr => exact iff_of_true hd h
  all_goals exact iff_of_false (by simp [hd]) (by omega)

theorem tierBound_le_max (x : Tier) : tierBound x ≤ 240000000 := by
  cases x <;> decide

/-- The tier selected has the least bound among those that cover the frequency (`40_clock_divisor.md` R102). -/
theorem tierBound_least_of_divsel (h : divsel f = some x) :
    f.toNat ≤ tierBound x ∧ ∀ y, f.toNat ≤ tierBound y → tierBound x ≤ tierBound y := by
  rcases divsel_cases f with
    ⟨hf, hd⟩ | ⟨hl, hf, hd⟩ | ⟨hl, hf, hd⟩ | ⟨hl, hf, hd⟩ | ⟨hl, hf, hd⟩ | ⟨hl, hf, hd⟩ | ⟨-, hd⟩ <;>
    rw [hd] at h <;> cases h
  all_goals
    refine ⟨hf, fun y hy => ?_⟩
    cases y <;> simp only [tierBound] at hy ⊢ <;> omega

/-- There is only one such tier. -/
theorem divsel_eq_some_iff (f : BitVec 32) (x : Tier) : divsel f = some x ↔
    f.toNat ≤ tierBound x ∧ ∀ y, f.toNat ≤ tierBound y → tierBound x ≤ tierBound y := by
  refine ⟨tierBound_least_of_divsel, fun ⟨hx, hleast⟩ => ?_⟩
  cases hd : divsel f with
  | none =>
    have hmax := (divsel_eq_none_iff f).mp hd
    have hbound := tierBound_le_max x
    omega
  | some y =>
    obtain ⟨hy, hleast'⟩ := tierBound_least_of_divsel hd
    rw [tierBound_injective (Nat.le_antisymm (hleast' x hx) (hleast y hy))]

/-- Settles O9: DIVSEL is the tier of least bound (`divsel_eq_some_iff`); the table and its vectors are numerals. -/
theorem divselPicksFirstTier : Obligations.DivselPicksFirstTier :=
  ⟨divsel_eq_some_iff, by decide, by decide, by decide, by decide, by decide⟩

/-! ### The clock it gives -/

/-- A clock not above the frequency selected for is at most 2.5 MHz times the divisor (`40_clock_divisor.md` R105). -/
theorem clock_le_of_divsel {c : BitVec 32} (h : divsel f = some x) (hc : c.toNat ≤ f.toNat) :
    c.toNat ≤ 2500000 * tierDivisor x :=
  tierBound_eq_mul_tierDivisor x ▸ hc.trans (tierBound_least_of_divsel h).1

/-- The divided clock in whole Hz is then at most 2.5 MHz. -/
theorem mdioClock_le_of_divsel {c : BitVec 32} (h : divsel f = some x) (hc : c.toNat ≤ f.toNat) :
    mdioClock c x ≤ 2500000 :=
  Nat.div_le_of_le_mul (Nat.mul_comm .. ▸ clock_le_of_divsel h hc)

/-- Above the first tier the frequency exceeds the bound of the tier below, and so half its own (`40_clock_divisor.md` R105). -/
theorem lt_of_divsel (h : divsel f = some x) (hx : x ≠ .div8) : 1250000 * tierDivisor x < f.toNat := by
  obtain ⟨y, hlt, hhalf⟩ := exists_tier_below hx
  have hy : tierBound y < f.toNat := by
    by_contra hcovers
    have hleast := (tierBound_least_of_divsel h).2 y (by omega)
    omega
  have hbound := tierBound_eq_mul_tierDivisor x
  omega

/-- Settles O10: the bounds of the frequency by the divisor divide out to the bounds of the clock. -/
theorem divselBoundsTheClock : Obligations.DivselBoundsTheClock := by
  refine ⟨divsel_eq_none_iff, fun f g x y hfg hf hg => ?monotonic, fun f x h => ?bounds⟩
  case monotonic =>
    have hg' := (tierBound_least_of_divsel hg).1
    exact (tierCode_le_iff x y).mpr ((tierBound_least_of_divsel hf).2 y (hfg.trans hg'))
  case bounds =>
    exact ⟨clock_le_of_divsel h le_rfl, lt_of_divsel h, mdioClock_le_of_divsel h le_rfl,
      fun hx => (Nat.le_div_iff_mul_le (tierDivisor_pos x)).mpr (lt_of_divsel h hx).le⟩

end

/-! ### The divisor codes -/

section
variable (x : Tier) (s : State)

/-- The instruction that the code of a tier stands for (`30_encoding.md` R91). -/
def tierInstr : Tier → Instr
  | .div8 => .div8
  | .div16 => .div16
  | .div32 => .div32
  | .div48 => .div48
  | .div64 => .div64
  | .div96 => .div96

theorem decodeDivisor_tierCode : decodeDivisor (tierCode x) = .instr (tierInstr x) := by
  cases x <;> rfl

/-- Executing a divisor code programs its divisor (`40_clock_divisor.md` R104). -/
theorem exec_tierInstr : exec (tierInstr x) s = .next (programDivisor x s) := by
  cases x <;> rfl

/-- The code and the clock are all that programming a divisor writes. -/
theorem programDivisor_eq :
    programDivisor x s = { s with div := tierCode x, mdc := s.pclk.toNat / tierDivisor x } := rfl

/-- A divisor already programmed, on a generator that runs on it, is left as it is. -/
theorem programDivisor_eq_self {x : Tier} {s : State} (hdiv : s.div = tierCode x) (hmdc : s.mdc = mdioClock s.pclk x) :
    programDivisor x s = s := by
  rw [programDivisor_eq, ← mdioClock, ← hdiv, ← hmdc]

end

/-- Settles O41: the instruction of each tier programs that tier's divisor (`exec_tierInstr`). -/
theorem divisorCodesProgramTheClock : Obligations.DivisorCodesProgramTheClock := fun s =>
  ⟨exec_tierInstr .div8 s, exec_tierInstr .div16 s, exec_tierInstr .div32 s, exec_tierInstr .div48 s,
    exec_tierInstr .div64 s, exec_tierInstr .div96 s⟩

/-- INITIALIZE that leaves LIFE at READY has programmed the divisor DIVSEL selects (`43_lifecycle.md` R161). -/
theorem exec_init_ready {s t : State} {f : BitVec 32} {p : BitVec 2} (h : exec (.init f p) s = .next t)
    (hl : t.life = .ready) :
    ∃ x, divsel f = some x ∧ t.div = tierCode x ∧ t.pclk = s.pclk ∧ t.mdc = mdioClock s.pclk x := by
  obtain ⟨-, -, ⟨-, rfl⟩ | ⟨x, hx, rfl⟩⟩ := exec_answers h
  · simp at hl
  · exact ⟨x, hx, rfl, rfl, rfl⟩

/-- Settles O18: DIVSEL bounds any clock not above the operand (`clock_le_of_divsel`), and the generator already runs on the
code it decodes. -/
theorem initialisedClockIsBounded : Obligations.InitialisedClockIsBounded := by
  intro s t f p _ h hl hclock
  obtain ⟨x, hx, hdiv, hpclk, hmdc⟩ := exec_init_ready h hl
  refine ⟨?mdc, ⟨x, hdiv, ?quotient⟩, tierInstr x, ?decodes, ?unchanged⟩
  case mdc => exact hmdc ▸ mdioClock_le_of_divsel hx hclock
  case quotient => exact hpclk ▸ clock_le_of_divsel hx hclock
  case decodes => exact hdiv ▸ decodeDivisor_tierCode x
  case unchanged => rw [exec_tierInstr, programDivisor_eq_self hdiv (hpclk ▸ hmdc)]

end Sys2Proof.Machine

/-!
PROOFS. The statements of `41_command_encoder.md`: when ENCODE fails, what a read word carries as DATA, and which words ENCODE
produces.
-/

namespace Sys2Proof.Machine

/-! ### When ENCODE answers a word -/

section
variable {p : Params} {proto : BitVec 2} {op : Op} {t r : Addr} {v : Half} {w : Word}

/-- The two codes that are not recognised (`30_encoding.md` R92). -/
theorem not_recognised_iff : recognised proto = false ↔ proto = 0b10#2 ∨ proto = 0b11#2 := by
  revert proto; decide

/-- Under a recognised protocol ENCODE is the encoder on the command form of its transaction (`41_command_encoder.md` R112
to R115); under any other it fails. -/
theorem encodeTransaction_eq_some_iff : encodeTransaction p proto op t r v = some w ↔
    recognised proto = true ∧ encode p (commandForm proto op t r v) = .command w := by
  rcases encodeTransaction_cases p proto op t r v with ⟨h0, h1, h⟩ | ⟨rfl, rfl, h⟩ | ⟨rfl, rfl, h⟩ | ⟨rfl, rfl, h⟩ |
    ⟨rfl, rfl, h⟩
  case inl => simp [h, recognised, h0, h1]
  all_goals simp [h, recognised, commandForm, encode]

theorem encodeTransaction_eq_none_iff : encodeTransaction p proto op t r v = none ↔ recognised proto = false := by
  cases hr : recognised proto with
  | true =>
    obtain ⟨w, hw⟩ := encodeTransaction_of_recognised p hr op t r v
    simp [hw]
  | false => simp [Option.eq_none_iff_forall_ne_some, encodeTransaction_eq_some_iff, hr]

end

/-- Settles O6: ENCODE fails on the codes that are not recognised, and past F_CHECK the protocol is a recognised one. -/
theorem encodeFailsOnUnrecognisedProtocol : Obligations.EncodeFailsOnUnrecognisedProtocol :=
  ⟨fun _ _ _ _ _ _ => encodeTransaction_eq_none_iff.trans not_recognised_iff,
    fun s h hf => encodeTransaction_of_recognised s.codes.params (h (.inr (.inl hf))) ..⟩

/-! ### The DATA of a read word -/

section
variable {p : Params} {proto : BitVec 2} {t r : Addr} {v : Half} {w : Word}

/-- A word that decodes to a read form has zero DATA (`30_encoding.md` R90). -/
theorem data_eq_zero_of_decode_read (hp : p.Ok) (h : decodeCommand p w = .instr (commandForm proto .read t r v)) :
    getField p.layout.data 16 w = 0#16 := by
  rcases commandForm_read proto t r v with hi | hi <;> rw [hi] at h
  · obtain ⟨-, -, hv, -⟩ := decodeCommand_c22Read_iff.mp h
    exact hv
  · obtain ⟨-, -, hv, -⟩ := (decodeCommand_c45Read_iff hp).mp h
    exact hv

end

/-- Settles O7: ENCODE puts zero in a read word whatever the write data, and the decoder finds it in DATA. -/
theorem readWordIgnoresData : Obligations.ReadWordIgnoresData := by
  intro p hp proto t r v1 v2 hr
  obtain ⟨w, hw⟩ := encodeTransaction_of_recognised p hr .read t r v1
  exact ⟨rfl, w, hw, data_eq_zero_of_decode_read hp (decodeCommand_of_encode hp hw)⟩

/-! ### The words ENCODE produces -/

section
variable {proto proto' : BitVec 2} {op op' : Op} {t r t' r' : Addr} {v v' : Half}

/-- The transaction a command form is of, with zero for the data of a Read (`41_command_encoder.md` R112 to R115). -/
def transactionOf : Instr → Option (BitVec 2 × Op × Addr × Addr × Half)
  | .c22Read t r => some (0#2, .read, t, r, 0#16)
  | .c22Write t r v => some (0#2, .write, t, r, v)
  | .c45Read t r => some (1#2, .read, t, r, 0#16)
  | .c45Write t r v => some (1#2, .write, t, r, v)
  | _ => none

/-- Under a recognised protocol a command form shows its whole transaction, but for the data of a Read. -/
theorem transactionOf_commandForm (hr : recognised proto = true) :
    transactionOf (commandForm proto op t r v) = some (proto, op, t, r, if op = .write then v else 0#16) := by
  rcases (by simpa [recognised] using hr : proto = 0#2 ∨ proto = 1#2) with rfl | rfl <;> cases op <;> rfl

/-- A command form of two transactions: they agree but for the data of a Read (`41_command_encoder.md` R118). -/
theorem commandForm_inj (hr : recognised proto = true) (hr' : recognised proto' = true)
    (h : commandForm proto op t r v = commandForm proto' op' t' r' v') :
    proto = proto' ∧ op = op' ∧ t = t' ∧ r = r' ∧ (op = .write → v = v') := by
  have hshown := congrArg transactionOf h
  simp only [transactionOf_commandForm hr, transactionOf_commandForm hr', Option.some.injEq, Prod.mk.injEq] at hshown
  obtain ⟨hproto, rfl, ht, hreg, hdata⟩ := hshown
  exact ⟨hproto, rfl, ht, hreg, fun ho => by simpa only [ho, if_true] using hdata⟩

end

section
variable {p : Params} {w : Word} {i : Instr}

/-- Setting a field to the value it holds changes nothing. -/
theorem setField_getField_self {pos n : Nat} (w : Word) (h : pos + n ≤ 32) : setField pos (getField pos n w) w = w := by
  apply BitVec.eq_of_getLsbD_eq
  intro i _
  rw [getLsbD_setField _ _ _ _ h]
  split_ifs with hi
  · rw [getLsbD_getField, Nat.add_sub_cancel' hi.1, decide_eq_true (by omega), Bool.true_and]
  · rfl

/-- What a command word decodes to is the command form of a transaction under a recognised protocol. -/
theorem exists_commandForm_of_decodeCommand (h : decodeCommand p w = .instr i) :
    ∃ proto op t r v, recognised proto = true ∧ i = commandForm proto op t r v := by
  rcases decodeCommand_cases p w with ⟨t, r, hd⟩ | ⟨t, r, v, hd⟩ | ⟨t, r, hd⟩ | ⟨t, r, v, hd⟩ | hd <;>
    cases h.symm.trans hd
  · exact ⟨0#2, .read, t, r, 0#16, rfl, rfl⟩
  · exact ⟨0#2, .write, t, r, v, rfl, rfl⟩
  · exact ⟨1#2, .read, t, r, 0#16, rfl, rfl⟩
  · exact ⟨1#2, .write, t, r, v, rfl, rfl⟩

/-- Every word of one of the four forms that carries `TA_CODE` is the word of a transaction. -/
theorem exists_encodeTransaction_of_decodeCommand (hl : p.layout = defaultLayout) (h : decodeCommand p w = .instr i)
    (hta : getField 16 2 w = p.taCode) :
    ∃ proto op t r v, recognised proto = true ∧ encodeTransaction p proto op t r v = some w := by
  obtain ⟨proto, op, t, r, v, hr, rfl⟩ := exists_commandForm_of_decodeCommand h
  have henc : encode p (commandForm proto op t r v) = .command w := by
    rw [encode_of_decodeCommand hl h, ← hta, setField_getField_self w (by decide)]
  exact ⟨proto, op, t, r, v, hr, encodeTransaction_eq_some_iff.mpr ⟨hr, henc⟩⟩

end

/-- Settles O8: decoding a word gives the command form of its transaction (`decodeCommand_of_encode`), which shows the
operands (`commandForm_inj`), and encoding a decoded word that carries TA_CODE gives it back. -/
theorem encodedWordsAreTheFourForms : Obligations.EncodedWordsAreTheFourForms := by
  intro p hp
  refine ⟨?decodes, ?produced, ?injective⟩
  case decodes => exact fun proto op t r v w hw => decodeCommand_of_encode hp hw
  case produced => exact fun hl w i hd hta => exists_encodeTransaction_of_decodeCommand hl hd hta
  case injective =>
    intro proto op t r v proto' op' t' r' v' w hw hw'
    have hform : commandForm proto op t r v = commandForm proto' op' t' r' v' :=
      Decoded.instr.inj ((decodeCommand_of_encode hp hw).symm.trans (decodeCommand_of_encode hp hw'))
    obtain ⟨hr, -⟩ := encodeTransaction_eq_some_iff.mp hw
    obtain ⟨hr', -⟩ := encodeTransaction_eq_some_iff.mp hw'
    exact commandForm_inj hr hr' hform

end Sys2Proof.Machine

/-!
PROOFS. The statements of `42_transaction_engine.md`: the engine's transitions one by one, the table they make up, what they
leave unchanged, and how a transaction is granted, held and ended.
-/

namespace Sys2Proof.Machine

/-! ### READ and WRITE as one transition of the engine -/

section
variable {s u : State} {i : Instr}

/-- The two recognised codes (`30_encoding.md` R92). -/
theorem recognised_iff {proto : BitVec 2} : recognised proto = true ↔ proto = 0b00#2 ∨ proto = 0b01#2 := by
  simp [recognised]

theorem Transition.fsm_ne_idle (e : Transition s u) : s.fsm ≠ .idle := by
  cases e with
  | _ hf => simp [hf]

/-- Outside `F_ISSUE`, where an abandoned Write is free, the state decides the transition the engine makes. -/
theorem Transition.engineStep_eq (e : Transition s u) (hi : s.fsm ≠ .issue) (d : Desc) : engineStep d s = u := by
  cases e with
  | checkPasses hf hr => exact engineStep_check d hf hr
  | checkFails hf hr => simp [engineStep, hf, checkProtocol, hr, raiseError, goto, setErr]
  | enable hf => exact engineStep_enable d hf
  | issue hf => exact absurd hf hi
  | issueFails hf => exact absurd hf hi
  | pollIdle hf hidle => exact engineStep_poll d hf hidle
  | pollBusy hf hidle => simp [engineStep, hf, Machine.pollIdle, hidle, goto, countPoll]
  | waitEnds hf hp => simp [engineStep, hf, waitInterval, budgetSpent, pollBudget, hp, raiseError, goto, setErr]
  | waitPolls hf hp => simp [engineStep, hf, waitInterval, budgetSpent, pollBudget, hp, goto]
  | capture hf => exact engineStep_capture d hf
  | release hf => exact engineStep_release d hf

/-- `F_ISSUE` under a recognised protocol (`42_transaction_engine.md` R138): the write of CMD, over whatever the slot holds. -/
theorem engineStep_issue_recognised (hf : s.fsm = .issue) (hr : recognised s.proto = true) :
    ∃ w, encodeTransaction s.codes.params s.proto s.d.op s.d.tgt s.d.reg s.d.wdata = some w ∧ ∃ m n,
      (∀ d, engineStep d s =
        { s with
          cmd := w, idle := false, slot := .full w (slotFull s.slot || !s.mbe), phy := m, draws := n,
          fsm := .poll }) ∧
      (∀ t r v, slotWrite s.codes s.slot = some (t, r, v) →
        m = if Config.freeChoice s.draws then phyWrite s.phy t r v else s.phy) ∧
      (slotWrite s.codes s.slot = none → m = s.phy) ∧ (s.slot = .empty → n = s.draws) := by
  obtain ⟨w, hw⟩ := encodeTransaction_of_recognised s.codes.params hr s.d.op s.d.tgt s.d.reg s.d.wdata
  obtain ⟨m, n, hstart, hwrite, hnone, hdraws⟩ := startCommand_eq w s
  exact ⟨w, hw, m, n, fun d => by simp [engineStep, hf, issueCommand, hw, hstart, goto], hwrite, hnone, hdraws⟩

/-- READ and WRITE that answer a next state have made the engine's step (`42_transaction_engine.md` R144). -/
theorem exec_transfer_engineStep (hi : (∃ t r, i = .rd t r) ∨ ∃ t r v, i = .wr t r v) (h : exec i s = .next u) :
    ∃ d, u = engineStep d s := by
  rcases hi with ⟨t, r, rfl⟩ | ⟨t, r, v, rfl⟩
  all_goals
    obtain ⟨-, -, -, hu⟩ := exec_answers h
    exact ⟨_, hu⟩

/-- When READY a step of the engine that latches no operand is the answer of READ and of WRITE alike. -/
theorem exec_transfers {t r : BitVec 8} (v : Half) (hl : s.life = .ready) (ht : t.toNat < 32) (hr : r.toNat < 32)
    (hu : ∀ d, engineStep d s = u) : exec (.rd t r) s = .next u ∧ exec (.wr t r v) s = .next u :=
  ⟨(exec_rd_eq (refusal_rd_none.mpr ⟨hl, ht, hr⟩)).trans (congrArg _ (hu _)),
    (exec_wr_eq (refusal_wr_none.mpr ⟨hl, ht, hr⟩)).trans (congrArg _ (hu _))⟩

/-- The response of the release step by its three forms (`30_encoding.md` R83, `60_exceptions.md` R189). -/
theorem releaseResponse_eq {e : Response}
    (h : (s.err = .ok ∧ s.d.op = .read ∧ e = { status := .ok, data := some s.rdata }) ∨
      (s.err = .ok ∧ s.d.op = .write ∧ e = { status := .ok, data := none }) ∨
      (s.err ≠ .ok ∧ e = { status := s.err, data := none })) : releaseResponse s = e := by
  rcases h with ⟨herr, hop, rfl⟩ | ⟨herr, hop, rfl⟩ | ⟨herr, rfl⟩
  · simp [releaseResponse, herr, hop]
  · simp [releaseResponse, herr, hop]
  · cases h : s.err <;> simp_all [releaseResponse]

end

/-- Settles O19: the operands latched are the low five bits of the addresses. -/
theorem acquireTakesTheGuard : Obligations.AcquireTakesTheGuard :=
  fun _ _ _ _ hl ht hr hf =>
    ⟨(exec_rd_eq (refusal_rd_none.mpr ⟨hl, ht, hr⟩)).trans (congrArg _ (engineStep_idle _ hf)),
      (exec_wr_eq (refusal_wr_none.mpr ⟨hl, ht, hr⟩)).trans (congrArg _ (engineStep_idle _ hf))⟩

/-- Settles O20: the two transitions out of `F_CHECK`, by whether the protocol is recognised. -/
theorem checkTestsTheProtocol : Obligations.CheckTestsTheProtocol := by
  intro s t r v hl ht hr hf
  have hi : s.fsm ≠ .issue := by simp [hf]
  refine ⟨fun hp => ?fails, fun hp => ?passes⟩
  case fails => exact exec_transfers v hl ht hr ((Transition.checkFails hf (not_recognised_iff.mpr hp)).engineStep_eq hi)
  case passes => exact exec_transfers v hl ht hr ((Transition.checkPasses hf (recognised_iff.mpr hp)).engineStep_eq hi)

/-- Settles O22: into an empty slot nothing is abandoned, so memory and the count of draws stay. -/
theorem issueStartsTheCommand : Obligations.IssueStartsTheCommand := by
  intro s t r v hl ht hr hf hp hs
  obtain ⟨w, hw, m, n, hstep, -, hphy, hdraws⟩ := engineStep_issue_recognised hf hp
  obtain rfl := hphy (by simp [hs, slotWrite])
  obtain rfl := hdraws hs
  simp only [hs, slotFull, Bool.false_or] at hstep
  exact ⟨w, hw, exec_transfers v hl ht hr hstep⟩

/-- Settles O23: over a full slot the abandoned command has its free effect and the mark is set. -/
theorem issueOverFullSlotOverlaps : Obligations.IssueOverFullSlotOverlaps := by
  intro s t r v hl ht hr hf hp hs
  obtain ⟨w, hw, m, n, hstep, hwrite, hnone, -⟩ := engineStep_issue_recognised hf hp
  simp only [hs, Bool.true_or] at hstep
  exact ⟨w, hw, m, n, hwrite, hnone, exec_transfers v hl ht hr hstep⟩

/-- Settles O24: the two transitions out of `F_POLL`, by STAT.IDLE. -/
theorem pollReadsIdleOnce : Obligations.PollReadsIdleOnce := by
  intro s t r v hl ht hr hf
  have hi : s.fsm ≠ .issue := by simp [hf]
  exact ⟨fun hidle => exec_transfers v hl ht hr ((Transition.pollIdle hf hidle).engineStep_eq hi),
    fun hidle => exec_transfers v hl ht hr ((Transition.pollBusy hf hidle).engineStep_eq hi)⟩

/-- Settles O25: the two transitions out of `F_WAIT`, by the count of attempts. -/
theorem waitEndsAtTheBudget : Obligations.WaitEndsAtTheBudget := by
  intro s t r v hl ht hr hf
  have hi : s.fsm ≠ .issue := by simp [hf]
  exact ⟨fun hp => exec_transfers v hl ht hr ((Transition.waitEnds hf hp).engineStep_eq hi),
    fun hp => exec_transfers v hl ht hr ((Transition.waitPolls hf hp).engineStep_eq hi)⟩

/-- Settles O26: the one transition out of `F_CAPTURE`, which takes the DATA field for a Read alone. -/
theorem captureTakesTheDataField : Obligations.CaptureTakesTheDataField := by
  intro s t r v hl ht hr hf
  have hstep := (Transition.capture hf).engineStep_eq (by simp [hf])
  refine ⟨fun ho => ?read, fun ho => ?write⟩
  case read =>
    simp only [ho, if_true] at hstep
    obtain ⟨hrd, hwr⟩ := exec_transfers v hl ht hr hstep
    exact ⟨hrd, hwr, fun hlayout => by rw [hlayout]; rfl⟩
  case write =>
    simp only [ho, reduceCtorEq, if_false] at hstep
    exact exec_transfers v hl ht hr hstep

/-- Settles O27: the release transition, whose response has one of the three forms. -/
theorem releaseAnswersTheOwner : Obligations.ReleaseAnswersTheOwner := by
  intro s t r v hl ht hr hf e he
  have hstep := (Transition.release hf).engineStep_eq (by simp [hf])
  rw [releaseResponse_eq he] at hstep
  exact exec_transfers v hl ht hr hstep

end Sys2Proof.Machine

namespace Sys2Proof.Machine

/-! ### The table of R144 -/

section
variable {s u : State}

/-- The latched transaction is the request of a READ or WRITE (`30_encoding.md` R81). -/
theorem isTransfer_of_latched {req : Request} (hd : decodeRequest req = .instr (latched s)) : isTransfer req = true := by
  have hne : ∀ {i : Instr}, decodeRequest req = .instr i → ¬ (i = .ben ∨ i = .bdis ∨ ∃ f p, i = .init f p) :=
    fun h hi => lifecycle_ne_latched hi (Decoded.instr.inj (h.symm.trans hd))
  rcases decodeRequest_cases req with ⟨ho, -⟩ | ⟨ho, -⟩ | ⟨-, h⟩ | ⟨-, h⟩ | ⟨-, h⟩ | ⟨-, h⟩
  · simp [isTransfer, ho]
  · simp [isTransfer, ho]
  · exact absurd (.inl rfl) (hne h)
  · exact absurd (.inr (.inl rfl)) (hne h)
  · exact absurd (.inr (.inr ⟨_, _, rfl⟩)) (hne h)
  · simp [hd] at h

/-- Past `F_CHECK` ENCODE does not fail (`42_transaction_engine.md` R136, R138). -/
theorem State.ProtoInv.encode_ne_none (h : s.ProtoInv) (hf : s.fsm = .issue) :
    encodeTransaction s.codes.params s.proto s.d.op s.d.tgt s.d.reg s.d.wdata ≠ none := by
  simp [encodeTransaction_eq_none_iff, h (.inr (.inl hf))]

/-- Before the fiftieth attempt has failed there is another poll (`42_transaction_engine.md` R140). -/
theorem State.PollsInv.polls_lt (h : s.PollsInv) (hf : s.fsm = .wait) (hp : s.polls ≠ 50) : s.polls < 50 := by
  simp only [State.PollsInv, hf, pollBudget] at h
  omega

end

/-- Settles O29: the acquire and the engine's transitions are the rows of the table, in its order, and no other effect
touches FSM. -/
theorem fsmTransitionsAreTheTable : Obligations.FsmTransitionsAreTheTable := by
  intro s t hproto hpolls h
  obtain ⟨l, n, q, e⟩ := step_effect h
  cases e with
  | acquire req d hf hl hp hd =>
    exact .inr (.inl ⟨hf, rfl, hl, rfl, rfl, q, req, hp, isTransfer_of_latched hd, rfl, hd⟩)
  | engine _ _ ht =>
    refine .inr (.inr ?_)
    cases ht with
    | checkPasses hf hr => exact .inl ⟨hf, rfl, recognised_iff.mp hr⟩
    | checkFails hf hr => exact .inr (.inl ⟨hf, rfl, not_recognised_iff.mp hr, rfl⟩)
    | enable hf => exact .inr (.inr (.inl ⟨hf, rfl, rfl⟩))
    | issue hf w m k he => exact .inr (.inr (.inr (.inl ⟨hf, rfl, rfl, ⟨_, rfl⟩, he⟩)))
    | issueFails hf he => exact absurd he (hproto.encode_ne_none hf)
    | pollIdle hf hi => exact .inr (.inr (.inr (.inr (.inl ⟨hf, rfl, hi, rfl⟩))))
    | pollBusy hf hi => exact .inr (.inr (.inr (.inr (.inr (.inl ⟨hf, rfl, hi, rfl⟩)))))
    | waitPolls hf hp => exact .inr (.inr (.inr (.inr (.inr (.inr (.inl ⟨hf, rfl, hpolls.polls_lt hf hp⟩))))))
    | waitEnds hf hp => exact .inr (.inr (.inr (.inr (.inr (.inr (.inr (.inl ⟨hf, rfl, hp, rfl⟩)))))))
    | capture hf =>
      exact .inr (.inr (.inr (.inr (.inr (.inr (.inr (.inr (.inl ⟨hf, rfl, rfl, fun ho => if_pos ho⟩))))))))
    | release hf =>
      exact .inr (.inr (.inr (.inr (.inr (.inr (.inr (.inr (.inr
        ⟨hf, rfl, rfl, tableFind_put_self .., tableFind_erase_self ..⟩))))))))
  | _ => exact .inl rfl

/-! ### What READ and WRITE leave unchanged -/

section
variable {s u : State}

/-- What no transition of the engine writes: lifecycle, configuration, interrupts, clock and bookkeeping. -/
theorem Transition.config_eq (e : Transition s u) :
    u.life = s.life ∧ u.proto = s.proto ∧ u.div = s.div ∧ u.intEn = s.intEn ∧ u.intPend = s.intPend ∧
      u.env = s.env ∧ u.codes = s.codes ∧ u.pclk = s.pclk ∧ u.mdc = s.mdc ∧ u.agenda = s.agenda ∧ u.cur = s.cur := by
  cases e <;> exact ⟨rfl, rfl, rfl, rfl, rfl, rfl, rfl, rfl, rfl, rfl, rfl⟩

/-- OWNER and the operand latches are written by the acquire step only (`42_transaction_engine.md` R147). -/
theorem Transition.owner_eq (e : Transition s u) : u.owner = s.owner ∧ u.d = s.d := by
  cases e <;> exact ⟨rfl, rfl⟩

/-- GUARD is freed by the release step only. -/
theorem Transition.guard_eq (e : Transition s u) (h : s.fsm ≠ .release) : u.guard = s.guard := by
  cases e with
  | release hf => exact absurd hf h
  | _ => rfl

/-- CTRL.MBE is set in `F_ENABLE` only (`42_transaction_engine.md` R137). -/
theorem Transition.mbe_eq (e : Transition s u) (h : s.fsm ≠ .enable) : u.mbe = s.mbe := by
  cases e with
  | enable hf => exact absurd hf h
  | _ => rfl

/-- The controller is given a command in `F_ISSUE` only (`42_transaction_engine.md` R138). -/
theorem Transition.command_eq (e : Transition s u) (h : s.fsm ≠ .issue) :
    u.cmd = s.cmd ∧ u.idle = s.idle ∧ u.slot = s.slot ∧ u.draws = s.draws := by
  cases e with
  | issue hf => exact absurd hf h
  | _ => exact ⟨rfl, rfl, rfl, rfl⟩

/-- The mailboxes are written by the release step only. -/
theorem Transition.mail_eq (e : Transition s u) (h : s.fsm ≠ .release) : u.pend = s.pend ∧ u.resp = s.resp := by
  cases e with
  | release hf => exact absurd hf h
  | _ => exact ⟨rfl, rfl⟩

/-- The release step writes the owner's mailboxes only (`42_transaction_engine.md` R143). -/
theorem Transition.mail_other (e : Transition s u) {q : Nat} (hq : q ≠ s.owner) :
    tableFind u.pend q = tableFind s.pend q ∧ tableFind u.resp q = tableFind s.resp q := by
  cases e with
  | release => exact ⟨tableFind_erase_other _ _ _ hq, tableFind_put_other _ _ _ _ hq⟩
  | _ => exact ⟨rfl, rfl⟩

/-- In flight POLLS is written in `F_POLL` only (`42_transaction_engine.md` R139). -/
theorem Transition.polls_eq (e : Transition s u) (h : s.fsm ≠ .poll) : u.polls = s.polls := by
  cases e with
  | pollIdle hf => exact absurd hf h
  | pollBusy hf => exact absurd hf h
  | _ => rfl

/-- RDATA is written in `F_CAPTURE` only (`42_transaction_engine.md` R142). -/
theorem Transition.rdata_eq (e : Transition s u) (h : s.fsm ≠ .capture) : u.rdata = s.rdata := by
  cases e with
  | capture hf => exact absurd hf h
  | _ => rfl

/-- ERR is written where a transaction may end: in `F_CHECK`, `F_WAIT` and `F_CAPTURE` (`60_exceptions.md` R184). -/
theorem Transition.err_eq (e : Transition s u) (hcheck : s.fsm ≠ .check) (hwait : s.fsm ≠ .wait)
    (hcapture : s.fsm ≠ .capture) (h : s.ProtoInv) : u.err = s.err := by
  cases e with
  | checkFails hf => exact absurd hf hcheck
  | issueFails hf he => exact absurd he (h.encode_ne_none hf)
  | waitEnds hf => exact absurd hf hwait
  | capture hf => exact absurd hf hcapture
  | _ => rfl

/-- With no Write abandoned memory stays as it is (`20_memory.md` R71). -/
theorem Transition.phy_eq (e : Transition s u) (h : s.fsm ≠ .issue ∨ slotWrite s.codes s.slot = none) :
    u.phy = s.phy := by
  cases e with
  | issue hf _ _ _ _ _ hnone => exact hnone (h.resolve_left (not_not_intro hf))
  | _ => rfl

/-- An abandoned Write changes the bytes of its own location only (`20_memory.md` R71). -/
theorem Transition.readByte_other (e : Transition s u) {t r : Addr} {v : Half}
    (h : slotWrite s.codes s.slot = some (t, r, v)) {a : Nat} (hlo : a ≠ phyAddr t r) (hhi : a ≠ phyAddr t r + 1) :
    readByte u.phy a = readByte s.phy a := by
  cases e with
  | issue _ w m n _ hw =>
    obtain rfl := hw t r v h
    dsimp only
    split
    · exact readByte_phyWrite_other _ _ _ _ _ hlo hhi
    · rfl
  | _ => rfl

end

/-- Settles O28: the acquire writes GUARD, OWNER, the latches, POLLS and FSM; each transition in flight writes what its
state says. -/
theorem transferFrame : Obligations.TransferFrame := by
  intro i s u hi h
  obtain ⟨d, rfl⟩ := exec_transfer_engineStep hi h
  by_cases hf : s.fsm = .idle
  case pos =>
    rw [engineStep_idle d hf]
    simp [hf]
  case neg =>
    have e := engineStep_transition d hf
    obtain ⟨hlife, hproto, hdiv, hen, hpend, henv, hcodes, hpclk, hmdc, hagenda, hcur⟩ := e.config_eq
    exact ⟨hlife, hproto, hdiv, hen, hpend, henv, hcodes, hpclk, hmdc, hagenda, hcur, e.mbe_eq, e.command_eq, e.mail_eq,
      fun q hq => e.mail_other hq, fun _ => e.guard_eq, fun _ => e.owner_eq, fun _ => e.polls_eq, e.rdata_eq, e.err_eq,
      fun hn a => by rw [e.phy_eq hn], fun t r v hw a hlo hhi => e.readByte_other hw hlo hhi⟩

/-- Settles O21: `F_ENABLE` sets the bit, and every other step of the engine leaves it (`Obligations.TransferFrame`). -/
theorem enableSetsTheBit : Obligations.EnableSetsTheBit := by
  refine ⟨fun s t r v hl ht hr hf => ?sets, fun i s u hi h hm => ?keeps⟩
  case sets => exact exec_transfers v hl ht hr ((Transition.enable hf).engineStep_eq (by simp [hf]))
  case keeps =>
    obtain ⟨d, rfl⟩ := exec_transfer_engineStep hi h
    by_cases hf : s.fsm = .enable
    · rw [engineStep_enable d hf]
    · obtain ⟨-, -, -, -, -, -, -, -, -, -, -, hmbe, -⟩ := transferFrame i s _ hi h
      exact (hmbe hf).trans hm

/-! ### The guard and the mailboxes under every step -/

section
variable {s t : State} {q : Nat} {req : Request}

/-- While a transaction is in flight no effect takes the guard again (`42_transaction_engine.md` R145, R147). -/
theorem Effect.guard_held (e : Effect s t) (hf : s.fsm ≠ .idle) (hg : s.guard = .held) :
    (t.guard = .held ∧ t.owner = s.owner ∧ t.d = s.d) ∨
      (s.fsm = .release ∧ t.guard = .available ∧ tableFind t.resp s.owner = some (releaseResponse s)) := by
  cases e with
  | acquire _ _ hidle => exact absurd hidle hf
  | engine _ _ ht =>
    cases ht with
    | release hf => exact .inr ⟨hf, rfl, tableFind_put_self ..⟩
    | _ => exact .inl ⟨hg, rfl, rfl⟩
  | _ => exact .inl ⟨hg, rfl, rfl⟩

/-- An answer removes the request of its own requester only, and leaves a response there (`10_state.md` R31). -/
theorem respond_answers_or_keeps (hp : tableFind s.pend q = some req) (q' : Nat) (v : Response) :
    tableFind (respond q' v s).pend q = some req ∨
      (tableFind (respond q' v s).pend q = none ∧ ∃ e, tableFind (respond q' v s).resp q = some e) := by
  by_cases hq : q = q'
  · subst hq
    exact .inr ⟨tableFind_erase_self .., v, tableFind_put_self ..⟩
  · exact .inl ((tableFind_erase_other _ _ _ hq).trans hp)

/-- Every effect answers a pending request or keeps it (`42_transaction_engine.md` R148). -/
theorem Effect.answers_or_keeps (e : Effect s t) (hp : tableFind s.pend q = some req) :
    tableFind t.pend q = some req ∨ (tableFind t.pend q = none ∧ ∃ e, tableFind t.resp q = some e) := by
  cases e with
  | submit q' _ _ hempty =>
    have hq : q ≠ q' := by
      rintro rfl
      simp [hempty] at hp
    exact .inl ((tableFind_put_other _ _ _ _ hq).trans hp)
  | engine _ _ ht =>
    cases ht with
    | release => exact respond_answers_or_keeps hp s.owner (releaseResponse s)
    | _ => exact .inl hp
  | busEnable => exact respond_answers_or_keeps hp s.cur (plainResponse .ok)
  | busDisable => exact respond_answers_or_keeps hp s.cur (plainResponse .ok)
  | initFails => exact respond_answers_or_keeps hp s.cur (plainResponse .unsupportedClock)
  | init => exact respond_answers_or_keeps hp s.cur (plainResponse .ok)
  | _ => exact .inl hp

end

/-- Settles O53: with the guard held a transaction is in flight, and no effect then takes the guard. -/
theorem guardHeldUntilRelease : Obligations.GuardHeldUntilRelease := by
  intro s t hinv hg h
  have hf : s.fsm ≠ .idle := fun hidle => by simp [hinv.mpr hidle] at hg
  obtain ⟨l, n, q, e⟩ := step_effect h
  exact e.guard_held hf hg

/-- Settles O54: a request leaves its mailbox by an answer only. -/
theorem pendingRequestIsAnsweredOrKept : Obligations.PendingRequestIsAnsweredOrKept := by
  intro s t q req hp h
  obtain ⟨l, n, q', e⟩ := step_effect h
  exact e.answers_or_keeps hp

end Sys2Proof.Machine

namespace Sys2Proof.Machine

/-! ### How many transitions a transaction has left (`42_transaction_engine.md` R146) -/

section
variable {s u : State}

theorem State.remaining_le (s : State) : s.remaining ≤ 105 := by
  have hbudget : pollBudget = 50 := rfl
  unfold State.remaining
  split <;> omega

theorem State.remaining_pos (hf : s.fsm ≠ .idle) : 0 < s.remaining := by
  unfold State.remaining
  split
  next hidle => exact absurd hidle hf
  all_goals omega

/-- Every transition lowers the number: the loop of `F_POLL` and `F_WAIT` by its count of attempts. -/
theorem Transition.remaining_lt (e : Transition s u) (h : s.PollsInv) : u.remaining < s.remaining := by
  cases e with
  | _ hf =>
    simp only [State.PollsInv, hf, pollBudget] at h
    simp only [State.remaining, hf, pollBudget]
    omega

/-- A step in flight is a transition of the engine, or it leaves FSM and POLLS as they are. -/
theorem Effect.keeps_or_remaining_lt (e : Effect s u) (h : s.PollsInv) (hf : s.fsm ≠ .idle) :
    (u.fsm = s.fsm ∧ u.polls = s.polls) ∨ u.remaining < s.remaining := by
  cases e with
  | acquire _ _ hidle => exact absurd hidle hf
  | engine _ _ ht => exact .inr (ht.remaining_lt h)
  | _ => exact .inl ⟨rfl, rfl⟩

end

/-- Settles O30: the engine's step lowers the number, and of the other effects none in flight touches FSM or POLLS. -/
theorem engineStepsRunOut : Obligations.EngineStepsRunOut := by
  refine ⟨fun s h hf hl => ⟨s.remaining_le, ?engine⟩, fun s t h hf hstep => ?any⟩
  case engine =>
    obtain ⟨d, hd⟩ := exec_latched s s hl
    exact ⟨_, hd, (engineStep_transition d hf).remaining_lt h⟩
  case any =>
    obtain ⟨l, n, q, e⟩ := step_effect hstep
    exact e.keeps_or_remaining_lt h hf

/-! ### A transaction outside SIM ends by the engine's own steps -/

/-- Outside SIM and READY, no turn is given and no lifecycle operation waits: the engine is left to its own steps
(`70_reset_and_hazards.md` R231 (a)). -/
def State.Unattended (s : State) : Prop :=
  s.life = .ready ∧ s.env ≠ .sim ∧ s.agenda = [] ∧ waitingLifecycle s = []

section
variable {s u : State}

/-- Outside SIM no completion comes ahead of a turn (`20_memory.md` R75 (b)). -/
theorem simCompletes_of_env (he : s.env ≠ .sim) : simCompletes s = false := by
  simp [simCompletes, he]

theorem State.Unattended.step (h : s.Unattended) (hf : s.fsm ≠ .idle) :
    ∃ u, step s = .next u ∧ Transition (serving s.owner s) u := by
  obtain ⟨hl, he, ha, hw⟩ := h
  obtain ⟨d, hd⟩ := step_engine hf hl ha hw (simCompletes_of_env he)
  exact ⟨_, hd, engineStep_transition d hf⟩

theorem Transition.unattended (e : Transition s u) (h : s.Unattended) : u.Unattended := by
  obtain ⟨hl, he, ha, hw⟩ := h
  cases e with
  | release => exact ⟨hl, he, ha, waitingLifecycle_erase hw rfl⟩
  | _ => exact ⟨hl, he, ha, hw⟩

/-- A transition that ends in `F_IDLE` has answered the owner (`42_transaction_engine.md` R143). -/
theorem Transition.answered (e : Transition s u) (hf : u.fsm = .idle) : u.Answered s.owner (releaseResponse s) := by
  cases e with
  | release => exact ⟨rfl, rfl, tableFind_erase_self .., tableFind_put_self ..⟩
  | _ => simp at hf

/-- By induction on the number of transitions left. -/
theorem State.Unattended.ends (k : Nat) (h : s.Unattended) (hpolls : s.PollsInv) (hf : s.fsm ≠ .idle)
    (hk : s.remaining ≤ k) : ∃ n t e, n ≤ k ∧ runSteps n s = .next t ∧ t.Answered s.owner e := by
  induction k generalizing s with
  | zero =>
    have hpos := State.remaining_pos hf
    omega
  | succ k ih =>
    have ⟨hl, he, _, _⟩ := h
    obtain ⟨u, hstep, e⟩ := h.step hf
    by_cases hidle : u.fsm = .idle
    case pos => exact ⟨1, u, _, by omega, runSteps_step hstep 0, e.answered hidle⟩
    case neg =>
      have hu : u.Unattended := e.unattended h
      have hlt : u.remaining < s.remaining := e.remaining_lt hpolls
      have hpolls' : u.PollsInv := (Effect.engine (s := serving s.owner s) hl (simCompletes_of_env he) e).pollsInv hpolls
      obtain ⟨n, t, v, hn, hrun, hans⟩ := ih hu hpolls' hidle (by omega)
      obtain ⟨howner, -⟩ : u.owner = s.owner ∧ u.d = s.d := e.owner_eq
      exact ⟨n + 1, t, v, by omega, (runSteps_step hstep n).trans hrun, howner ▸ hans⟩

end

/-- Settles O31: at most 105 transitions are left, and each step makes one. -/
theorem transactionAlwaysEnds : Obligations.TransactionAlwaysEnds :=
  fun s hpolls hf hl he ha hw => State.Unattended.ends 105 ⟨hl, he, ha, hw⟩ hpolls hf s.remaining_le

/-! ### Fifty attempts against a controller that never completes -/

section
variable {s u : State} (h : s.Alone) (he : s.env ≠ .sim)
include h he

/-- By itself and outside SIM, the engine makes its transition. -/
theorem State.Alone.step_transition (hi : s.fsm ≠ .issue) (e : Transition s u) : step s = .next u := by
  obtain ⟨d, hd⟩ := h.engine_step e.fsm_ne_idle (simCompletes_of_env he)
  rw [hd, e.engineStep_eq hi d]

/-- From `F_CHECK` to `F_POLL` over whatever the slot holds. -/
theorem State.Alone.check_to_poll_over (hf : s.fsm = .check) (hr : recognised s.proto = true) :
    ∃ w ov m n, encodeTransaction s.codes.params s.proto s.d.op s.d.tgt s.d.reg s.d.wdata = some w ∧
      runSteps 3 s =
        .next { s with mbe := true, cmd := w, idle := false, slot := .full w ov, phy := m, draws := n, fsm := .poll } := by
  have henable : State.Alone { s with fsm := .enable } := h
  have hissue : State.Alone { s with mbe := true, fsm := .issue } := h
  obtain ⟨w, hw, m, n, hstart, -⟩ := engineStep_issue_recognised (s := { s with mbe := true, fsm := .issue }) rfl hr
  obtain ⟨d, hd⟩ := hissue.engine_step nofun (simCompletes_of_env he)
  have hrun := calc runSteps 3 s
    _ = runSteps 2 { s with fsm := .enable } := runSteps_step (h.step_check hf hr) 2
    _ = runSteps 1 { s with mbe := true, fsm := .issue } := runSteps_step (henable.step_enable rfl) 1
    _ = runSteps 0 _ := runSteps_step (hd.trans (congrArg _ (hstart d))) 0
  exact ⟨w, _, m, n, hw, hrun⟩

/-- `k` failed attempts, each a poll and a wait, while the budget lasts (`42_transaction_engine.md` R139, R140). -/
theorem State.Alone.failed_polls (hf : s.fsm = .poll) (hi : s.idle = false) (k : Nat) (hk : s.polls + k < 50) :
    runSteps (2 * k) s = .next { s with polls := s.polls + k, fsm := .poll } := by
  induction k with
  | zero =>
    rw [← hf]
    rfl
  | succ k ih =>
    have hpoll : State.Alone { s with polls := s.polls + k, fsm := .poll } := h
    have hwait : State.Alone { s with polls := s.polls + (k + 1), fsm := .wait } := h
    calc runSteps (2 * (k + 1)) s
      _ = runSteps 2 { s with polls := s.polls + k, fsm := .poll } := runSteps_add (ih (by omega)) 2
      _ = runSteps 1 { s with polls := s.polls + (k + 1), fsm := .wait } :=
        runSteps_step (hpoll.step_transition he nofun (.pollBusy rfl hi)) 1
      _ = .next { s with polls := s.polls + (k + 1), fsm := .poll } :=
        runSteps_step (hwait.step_transition he nofun (.waitPolls rfl (Nat.ne_of_lt hk))) 0

/-- From the first poll to the answer, 49 failed attempts and the fiftieth, after which the wait ends in `Timeout`
(`42_transaction_engine.md` R141, R150). -/
theorem State.Alone.poll_to_timeout (hf : s.fsm = .poll) (hi : s.idle = false) (hp : s.polls = 0) :
    runSteps 101 s =
      .next { s with
        guard := .available, fsm := .idle, polls := 50, err := .timeout, pend := tableErase s.pend s.owner,
        resp := tablePut s.resp s.owner { status := .timeout, data := none } } := by
  have hpolls := h.failed_polls he hf hi 49 (by omega)
  rw [hp] at hpolls
  have hpoll : State.Alone { s with polls := 49, fsm := .poll } := h
  have hwait : State.Alone { s with polls := 50, fsm := .wait } := h
  have hrelease : State.Alone { s with polls := 50, err := .timeout, fsm := .release } := h
  calc runSteps 101 s
    _ = runSteps 3 { s with polls := 49, fsm := .poll } := runSteps_add hpolls 3
    _ = runSteps 2 { s with polls := 50, fsm := .wait } :=
      runSteps_step (hpoll.step_transition he nofun (.pollBusy rfl hi)) 2
    _ = runSteps 1 { s with polls := 50, err := .timeout, fsm := .release } :=
      runSteps_step (hwait.step_transition he nofun (.waitEnds rfl rfl)) 1
    _ = _ := runSteps_step (hrelease.step_release rfl) 0

end

/-- Settles O32: acquire, check, enable and issue, fifty times poll and wait, release. -/
theorem stuckControllerTimesOutAfterFifty : Obligations.StuckControllerTimesOutAfterFifty := by
  intro s q i hserve he hr
  obtain ⟨hl, hf, ha, hw, hi, req, hp, ht, hd⟩ := hserve
  have hsim : s.env ≠ .sim := by simp [he]
  obtain ⟨d, hacquire, -⟩ := step_acquire hf hl ha hp ht hd hi
  obtain ⟨w, ov, m, n, henc, hissue⟩ := State.Alone.check_to_poll_over
    (s := { s with guard := .held, owner := q, d := d, polls := 0, fsm := .check, agenda := [], cur := q })
    ⟨hl, rfl, hw, rfl⟩ hsim rfl hr
  have htimeout := State.Alone.poll_to_timeout
    (s := { s with
      guard := .held, owner := q, d := d, polls := 0, fsm := .poll, agenda := [], cur := q, mbe := true, cmd := w,
      idle := false, slot := .full w ov, phy := m, draws := n })
    ⟨hl, rfl, hw, rfl⟩ hsim rfl rfl rfl
  have hrun := calc runSteps 105 s
    _ = runSteps 104 _ := runSteps_step hacquire 104
    _ = runSteps 101 _ := runSteps_add hissue 101
    _ = _ := htimeout
  exact ⟨_, hrun, ⟨rfl, rfl, tableFind_erase_self .., tableFind_put_self ..⟩, rfl, rfl, rfl, ⟨ov, rfl⟩, henc⟩

/-! ### A transaction in SIM -/

/-- Settles O33: the state SIM leaves after a WRITE (`runSteps_sim_write`), field by field. -/
theorem simWriteReachesThePhy : Obligations.SimWriteReachesThePhy := by
  intro s q t r v hserve he hok hr hs
  obtain ⟨d, c, x, n, hrun⟩ := runSteps_sim_write he hok hr hs hserve
  exact ⟨_, hrun, State.simServed_answered .., phyRead_phyWrite_self ..,
    fun a hlo hhi => readByte_phyWrite_other _ _ _ _ _ hlo hhi, rfl, rfl, rfl, rfl, rfl, rfl, rfl⟩

/-- Settles O34: the state SIM leaves after a READ (`runSteps_sim_read`), field by field. -/
theorem simReadReturnsTheLocation : Obligations.SimReadReturnsTheLocation := by
  intro s q t r hserve he hok hr hs
  obtain ⟨d, c, x, n, hrun, hdata⟩ := runSteps_sim_read he hok hr hs hserve
  exact ⟨_, hrun, State.simServed_answered .., rfl, hdata, rfl, rfl, rfl, rfl⟩

/-! ### The grant (`42_transaction_engine.md` R134, R135) -/

section
variable {s : State} {q : Nat}

/-- The arbiter's free choice is one of those that wait. -/
theorem freeGrant_mem {l : List Nat} (h : l ≠ []) (n : Nat) : freeGrant l n ∈ l := by
  have hlt : Config.freeGrant n % l.length < l.length := Nat.mod_lt _ (List.length_pos_of_ne_nil h)
  rw [freeGrant, List.getD_eq_getElem _ _ hlt]
  exact List.getElem_mem hlt

/-- A requester that waits has a READ or WRITE in its mailbox. -/
theorem exists_transfer_of_waiting (hs : tableSorted s.pend) (hq : q ∈ waitingTransfers s) :
    ∃ req, tableFind s.pend q = some req ∧ isTransfer req = true := by
  simp only [waitingTransfers, List.mem_map, List.mem_filter] at hq
  obtain ⟨⟨_, req⟩, ⟨hmem, ht⟩, rfl⟩ := hq
  exact ⟨req, tableFind_of_mem _ _ _ hs hmem, ht⟩

/-- By its own turn order the block gives the engine's turn to a requester that waits. -/
theorem ownTurn_grants (hf : s.fsm = .idle) (hw : waitingLifecycle s = []) (hwait : waitingTransfers s ≠ []) :
    ∃ q ∈ waitingTransfers s, (ownTurn s).1 = some (.engine q) := by
  simp only [ownTurn, hw, hf, if_true]
  match hl : waitingTransfers s with
  | [] => exact absurd hl hwait
  | [q] => exact ⟨q, List.mem_singleton_self q, rfl⟩
  | q :: q' :: l => exact ⟨_, freeGrant_mem (List.cons_ne_nil _ _) s.draws, rfl⟩

/-- With the agenda empty the block's own turn does what the same turn does when it is given, a draw aside. -/
theorem step_ownTurn {t : Turn} (hc : simCompletes s = false) (ha : s.agenda = []) (ht : (ownTurn s).1 = some t) :
    ∃ n, step s = step { s with draws := n, agenda := [t] } := by
  have hgiven (n : Nat) : fetch { s with draws := n, agenda := [t] } = takeTurn t { s with draws := n, agenda := [] } :=
    fetch_given_turn hc rfl
  have hown : fetch s = takeTurn t (ownTurn s).2 := by
    obtain ⟨s', hs'⟩ : ∃ s', ownTurn s = (some t, s') := ⟨_, Prod.ext ht rfl⟩
    simp [fetch, hc, ha, hs']
  rcases ownTurn_state s with hs | hs <;> rw [hs] at hown
  · exact ⟨s.draws, by rw [step, step, hgiven, hown, ← ha]⟩
  · exact ⟨s.draws + 1, by rw [step, step, hgiven, hown, ← ha, countDraw]⟩

/-- Given the engine's turn for a requester that waits, the step is its acquire. -/
theorem step_grant (hl : s.life = .ready) (hf : s.fsm = .idle) (hpend : s.PendInv) (hs : tableSorted s.pend)
    (hq : q ∈ waitingTransfers s) (ha : s.agenda = [.engine q]) :
    ∃ t, step s = .next t ∧ t.owner = q ∧ t.guard = .held ∧ t.fsm = .check := by
  obtain ⟨req, hp, ht⟩ := exists_transfer_of_waiting hs hq
  obtain ⟨i, hd, hi⟩ := hpend q req hp
  obtain ⟨d, hstep, -⟩ := step_acquire hf hl ha hp ht hd hi
  exact ⟨_, hstep, rfl, rfl, rfl⟩

end

/-- Settles O59: the block's own turn is the engine's for a requester that waits, and so may a given turn be. -/
theorem arbiterGrantsAWaitingRequester : Obligations.ArbiterGrantsAWaitingRequester := by
  intro s hl hf hpend hs
  refine ⟨fun ha hw hwait => ?own, fun q hq => ?given⟩
  case own =>
    obtain ⟨q, hq, hturn⟩ := ownTurn_grants hf hw hwait
    obtain ⟨n, hown⟩ := step_ownTurn (by simp [simCompletes, hf]) ha hturn
    obtain ⟨t, hstep, hgranted⟩ := step_grant (s := { s with draws := n, agenda := [.engine q] }) hl hf hpend hs hq rfl
    exact ⟨q, hq, t, hown.trans hstep, hgranted⟩
  case given => exact step_grant (s := { s with agenda := [.engine q] }) hl hf hpend hs hq rfl

/-! ### Submission (`42_transaction_engine.md` R133) -/

section
variable {s : State} {q : Nat} {req : Request}

theorem step_submission {rest : List Turn} (hc : simCompletes s = false) (ha : s.agenda = .submit q req :: rest) :
    step s = submit q req (setAgenda rest s) :=
  step_of_fetch_done (fetch_given_turn hc ha)

/-- A requester with a request or a response outstanding is refused. -/
theorem submit_busy (hq : q < Config.nReq) (h : tableFind s.pend q ≠ none ∨ tableFind s.resp q ≠ none) :
    submit q req s = .refused .mailboxBusy := by
  simp only [← Option.isSome_iff_ne_none, ← Bool.or_eq_true] at h
  simp [submit, hq, h]

variable (hq : q < Config.nReq) (hp : tableFind s.pend q = none) (hr : tableFind s.resp q = none)
include hq hp hr

theorem submit_reserved (ho : 5 ≤ req.op.toNat) : submit q req s = .refused (.reservedOperation req.op) := by
  simp [submit, hq, hp, hr, decode, (decodeRequest_rejects_iff req).mp ho]

theorem submit_refused {i : Instr} {e : Refusal} (hd : decodeRequest req = .instr i) (hl : refusal i s.life = some e) :
    submit q req s = .refused e := by
  simp [submit, hq, hp, hr, decode, hd, hl]

/-- In SIM a BUS_DISABLE in flight is refused (`20_memory.md` R75 (c)). -/
theorem submit_forbidden (hd : decodeRequest req = .instr .bdis) (hl : s.life = .ready) (he : s.env = .sim)
    (hf : s.fsm ≠ .idle) : submit q req s = .refused .disableInFlight := by
  simp [submit, hq, hp, hr, decode, hd, refusal_bdis_none.mpr hl, disableForbidden,
    simForbidsDisable_iff.mpr ⟨he, hf⟩]

end

/-- Settles O57: the tests of a submission in their order, each with its refusal. -/
theorem submissionPostsTheRequest : Obligations.SubmissionPostsTheRequest := by
  intro s rest q req hc ha hq
  have hsubmit := step_submission hc ha
  refine ⟨fun hp hr i hd hl hn => ?posts, fun hp hr ho => ?reserved, fun hp hr i e hd hl => ?refused,
    fun hp hr hd hl he hf => ?forbidden, fun hbusy => ?busy⟩
  case posts =>
    refine step_submit hc ha hq hp hr hd hl ?_
    simpa [disableForbidden, simForbidsDisable] using hn
  case reserved => exact hsubmit.trans (submit_reserved hq hp hr ho)
  case refused => exact hsubmit.trans (submit_refused (s := setAgenda rest s) hq hp hr hd hl)
  case forbidden => exact hsubmit.trans (submit_forbidden hq hp hr hd hl he hf)
  case busy => exact hsubmit.trans (submit_busy hq hbusy)

end Sys2Proof.Machine

/-!
PROOFS. The statements of `43_lifecycle.md`: what INITIALIZE, BUS_ENABLE and BUS_DISABLE answer, what they leave unchanged, and
how LIFE changes.
-/

namespace Sys2Proof.Machine

/-! ### LIFE under every step -/

section
variable {s t : State}

/-- Of all effects only INITIALIZE writes LIFE, and it has a meaning only when UNINIT (`43_lifecycle.md` R163). -/
theorem Effect.life_eq_or_init (e : Effect s t) :
    t.life = s.life ∨
    (s.life = .uninit ∧ ∃ q req f p, tableFind s.pend q = some req ∧ decodeRequest req = .instr (.init f p) ∧
      ((t.life = .ready ∧ ∃ x, divsel f = some x) ∨ (t.life = .failed ∧ divsel f = none))) := by
  cases e with
  | engine _ _ ht => exact .inl ht.config_eq.1
  | initFails req f p hl hp hd hx => exact .inr ⟨hl, s.cur, req, f, p, hp, hd, .inr ⟨rfl, hx⟩⟩
  | init req f p x hl hp hd hx => exact .inr ⟨hl, s.cur, req, f, p, hp, hd, .inl ⟨rfl, x, hx⟩⟩
  | _ => exact .inl rfl

end

/-- Settles O50: the step's effect is on a state with other bookkeeping, which has the same LIFE and mailboxes. -/
theorem lifeChangesOnlyByInitialise : Obligations.LifeChangesOnlyByInitialise := by
  intro s t h
  obtain ⟨l, n, q, e⟩ := step_effect h
  exact e.life_eq_or_init

/-! ### The operations where they have a meaning -/

section
variable {s : State} {f : BitVec 32} {x : Tier}

theorem exec_ben_eq (hl : s.life = .ready) :
    exec .ben s = .next (respond s.cur (plainResponse .ok) (setMbe true s)) := by
  simp only [exec, execBen, refusal_ben_none.mpr hl]

theorem exec_bdis_eq (hl : s.life = .ready) :
    exec .bdis s = .next (respond s.cur (plainResponse .ok) (setSlot (markSlot s.slot) (setMbe false s))) := by
  simp only [exec, execBdis, refusal_bdis_none.mpr hl]

/-- INITIALIZE on a frequency that DIVSEL covers (`43_lifecycle.md` R161). -/
theorem exec_init_of_divsel_some (hl : s.life = .uninit) (hf : f ≠ 0#32) (hx : divsel f = some x) (p : BitVec 2) :
    exec (.init f p) s = .next (respond s.cur (plainResponse .ok) (bringUp x p s)) := by
  simp only [exec, execInit, refusal_init_none.mpr ⟨hl, hf⟩, hx]

/-- INITIALIZE on a frequency that DIVSEL does not cover (`43_lifecycle.md` R162). -/
theorem exec_init_of_divsel_none (hl : s.life = .uninit) (hf : f ≠ 0#32) (hx : divsel f = none) (p : BitVec 2) :
    exec (.init f p) s = .next (respond s.cur (plainResponse .unsupportedClock) (setLife .failed s)) := by
  simp only [exec, execInit, refusal_init_none.mpr ⟨hl, hf⟩, hx]

/-- DIVSEL covers every frequency up to its last bound (`40_clock_divisor.md` R102). -/
theorem exists_divsel_of_le (h : f.toNat ≤ 240000000) : ∃ x, divsel f = some x :=
  Option.ne_none_iff_exists'.mp fun hn => Nat.not_lt.mpr h ((divsel_eq_none_iff f).mp hn)

theorem setMbe_eq_self {b : Bool} (h : s.mbe = b) : setMbe b s = s := by
  subst h
  rfl

end

/-- Settles O11: a supported frequency has a tier, and INITIALIZE brings the bus up on it. -/
theorem initialiseSucceeds : Obligations.InitialiseSucceeds := by
  intro s f p hl hf hle
  obtain ⟨x, hx⟩ := exists_divsel_of_le hle
  exact ⟨x, hx, exec_init_of_divsel_some hl hf hx p⟩

/-- Settles O12: above the last bound DIVSEL fails; up to it INITIALIZE answers OK. -/
theorem initialiseUnsupportedClock : Obligations.InitialiseUnsupportedClock := by
  intro s f p hl hf
  refine ⟨fun hgt => ?unsupported, fun hle => ?supported⟩
  case unsupported => exact exec_init_of_divsel_none hl hf ((divsel_eq_none_iff f).mpr hgt) p
  case supported =>
    obtain ⟨x, hx⟩ := exists_divsel_of_le hle
    exact ⟨_, exec_init_of_divsel_some hl hf hx p, tableFind_put_self ..⟩

/-- Settles O15: the request is read by its number; the second BUS_ENABLE sets a bit that is set (`setMbe_eq_self`). -/
theorem busEnableSetsTheBit : Obligations.BusEnableSetsTheBit := by
  refine ⟨fun q hop => ?request, fun s hl => exec_ben_eq hl, fun s hl hm => ?again⟩
  case request => simp [decodeRequest, hop]
  case again =>
    rw [exec_ben_eq hl, setMbe_eq_self hm]
    rfl

/-- Settles O16: the mark is `markSlot`, of an empty and of a full slot. -/
theorem busDisableMarksTheSlot : Obligations.BusDisableMarksTheSlot := by
  refine ⟨fun s hl hs => ?empty, fun s w ov hl hs => ?full⟩
  case empty =>
    rw [exec_bdis_eq hl, hs, markSlot, ← hs]
    rfl
  case full =>
    rw [exec_bdis_eq hl, hs]
    rfl

/-! ### The operations where LIFE gives them no meaning -/

/-- `LIFE` is checked before the operands. -/
theorem exec_of_lifeRefusal {s : State} {i : Instr} {e : Refusal} (h : lifeRefusal i s.life = some e) :
    exec i s = .refused e :=
  exec_of_refusal (by rw [refusal, h])

/-- Settles O13: the refusal of each operation is that of LIFE. -/
theorem wrongLifeRefused : Obligations.WrongLifeRefused := by
  refine ⟨fun s hl => ?notReady, fun s hl f p => exec_of_lifeRefusal (if_neg hl)⟩
  case notReady =>
    have hr : readyRefusal s.life = some .notReady := if_neg hl
    exact ⟨fun _ _ => exec_of_lifeRefusal hr, fun _ _ _ => exec_of_lifeRefusal hr, exec_of_lifeRefusal hr,
      exec_of_lifeRefusal hr⟩

/-! ### What the operations leave unchanged -/

/-- What the lifecycle controller answers to its operations: a response, after the register writes of each. -/
inductive LifecycleAnswer (s : State) : Instr → State → Prop where
  | ben : LifecycleAnswer s .ben (respond s.cur (plainResponse .ok) (setMbe true s))
  | bdis : LifecycleAnswer s .bdis (respond s.cur (plainResponse .ok) (setSlot (markSlot s.slot) (setMbe false s)))
  | initFails (f : BitVec 32) (p : BitVec 2) :
      LifecycleAnswer s (.init f p) (respond s.cur (plainResponse .unsupportedClock) (setLife .failed s))
  | init (f : BitVec 32) (p : BitVec 2) (x : Tier) :
      LifecycleAnswer s (.init f p) (respond s.cur (plainResponse .ok) (bringUp x p s))

section
variable {s t : State} {i : Instr}

theorem exec_lifecycleAnswer (hi : i = .ben ∨ i = .bdis ∨ ∃ f p, i = .init f p) (h : exec i s = .next t) :
    LifecycleAnswer s i t := by
  rcases hi with rfl | rfl | ⟨f, p, rfl⟩
  · obtain ⟨-, rfl⟩ := exec_answers h
    exact .ben
  · obtain ⟨-, rfl⟩ := exec_answers h
    exact .bdis
  · obtain ⟨-, -, ⟨-, rfl⟩ | ⟨x, -, rfl⟩⟩ := exec_answers h
    · exact .initFails f p
    · exact .init f p x

/-- The guard and the engine run on beside the lifecycle controller (`43_lifecycle.md` R168, R169). -/
theorem LifecycleAnswer.engine_eq (a : LifecycleAnswer s i t) :
    t.guard = s.guard ∧ t.owner = s.owner ∧ t.fsm = s.fsm ∧ t.d = s.d ∧ t.polls = s.polls ∧ t.rdata = s.rdata ∧
      t.err = s.err := by
  cases a <;> exact ⟨rfl, rfl, rfl, rfl, rfl, rfl, rfl⟩

/-- CMD, STAT.IDLE, the environment and the bookkeeping are written by no lifecycle operation. -/
theorem LifecycleAnswer.environment_eq (a : LifecycleAnswer s i t) :
    t.cmd = s.cmd ∧ t.idle = s.idle ∧ t.env = s.env ∧ t.codes = s.codes ∧ t.pclk = s.pclk ∧ t.agenda = s.agenda ∧
      t.cur = s.cur ∧ t.draws = s.draws ∧ t.phy = s.phy := by
  cases a <;> exact ⟨rfl, rfl, rfl, rfl, rfl, rfl, rfl, rfl, rfl⟩

/-- An answer touches the mailboxes of the requester served only (`10_state.md` R31). -/
theorem LifecycleAnswer.mail_other (a : LifecycleAnswer s i t) {q : Nat} (hq : q ≠ s.cur) :
    tableFind t.pend q = tableFind s.pend q ∧ tableFind t.resp q = tableFind s.resp q := by
  cases a <;> exact ⟨tableFind_erase_other _ _ _ hq, tableFind_put_other _ _ _ _ hq⟩

/-- The slot is written by BUS_DISABLE only, which marks it (`20_memory.md` R72). -/
theorem LifecycleAnswer.slot_eq (a : LifecycleAnswer s i t) :
    t.slot = s.slot ∨ (i = .bdis ∧ t.slot = markSlot s.slot) := by
  cases a with
  | bdis => exact .inr ⟨rfl, rfl⟩
  | _ => exact .inl rfl

/-- Lifecycle, configuration and interrupts are written by INITIALIZE only (`43_lifecycle.md` R161). -/
theorem LifecycleAnswer.config_eq (a : LifecycleAnswer s i t) (hi : i = .ben ∨ i = .bdis) :
    t.life = s.life ∧ t.proto = s.proto ∧ t.div = s.div ∧ t.mdc = s.mdc ∧ t.intEn = s.intEn ∧ t.intPend = s.intPend := by
  cases a with
  | ben => exact ⟨rfl, rfl, rfl, rfl, rfl, rfl⟩
  | bdis => exact ⟨rfl, rfl, rfl, rfl, rfl, rfl⟩
  | _ => simp at hi

/-- Marking a slot neither fills nor empties it. -/
theorem markSlot_eq_empty_iff {x : Slot} : markSlot x = .empty ↔ x = .empty := by
  cases x <;> simp [markSlot]

theorem LifecycleAnswer.slot_empty_iff (a : LifecycleAnswer s i t) : s.slot = .empty ↔ t.slot = .empty := by
  rcases a.slot_eq with h | ⟨-, h⟩ <;> rw [h]
  exact markSlot_eq_empty_iff.symm

/-- A command in the slot keeps its word, and its mark unless the bus is disabled. -/
theorem LifecycleAnswer.slot_full (a : LifecycleAnswer s i t) {w : Word} {ov : Bool} (hs : s.slot = .full w ov) :
    ∃ ov', t.slot = .full w ov' ∧ (i ≠ .bdis → ov' = ov) := by
  rcases a.slot_eq with h | ⟨hi, h⟩ <;> rw [hs] at h
  · exact ⟨ov, h, fun _ => rfl⟩
  · exact ⟨true, h, fun hne => absurd hi hne⟩

end

/-- Settles O17: what the three operations answer (`LifecycleAnswer`), part by part. -/
theorem lifecycleFrame : Obligations.LifecycleFrame := by
  intro i s t hi h
  have a := exec_lifecycleAnswer hi h
  obtain ⟨hguard, howner, hfsm, hd, hpolls, hrdata, herr⟩ := a.engine_eq
  obtain ⟨hcmd, hidle, henv, hcodes, hpclk, hagenda, hcur, hdraws, hphy⟩ := a.environment_eq
  exact ⟨hguard, howner, hfsm, hd, hpolls, hrdata, herr, hcmd, hidle, henv, hcodes, hpclk, hagenda, hcur, hdraws,
    fun _ => by rw [hphy], fun _ hq => a.mail_other hq, a.slot_empty_iff, fun _ _ hs => a.slot_full hs, a.config_eq⟩

end Sys2Proof.Machine

/-!
PROOFS. The statements of `60_exceptions.md`: a transaction under an unrecognised protocol, and which operation writes the
interrupt registers.
-/

namespace Sys2Proof.Machine

/-! ### A transaction under an unrecognised protocol (`60_exceptions.md` R181) -/

/-- From `F_CHECK` to the answer: the check raises the error, and the release answers it. -/
theorem State.Alone.check_to_unsupported {s : State} (h : s.Alone) (hf : s.fsm = .check)
    (hr : recognised s.proto = false) :
    runSteps 2 s =
      .next { s with
        guard := .available, fsm := .idle, err := .unsupportedProtocol, pend := tableErase s.pend s.owner,
        resp := tablePut s.resp s.owner { status := .unsupportedProtocol, data := none } } := by
  obtain ⟨d, hcheck⟩ := h.engine_step (by simp [hf]) (by simp [simCompletes, hf])
  rw [(Transition.checkFails hf hr).engineStep_eq (by simp [hf]) d] at hcheck
  have hrelease : State.Alone { s with err := .unsupportedProtocol, fsm := .release } := h
  calc runSteps 2 s
    _ = runSteps 1 { s with err := .unsupportedProtocol, fsm := .release } := runSteps_step hcheck 1
    _ = _ := runSteps_step (hrelease.step_release rfl) 0

/-- Settles O36: acquire, the failed check, release; none of the three writes a register (`60_exceptions.md` R187). -/
theorem unrecognisedProtocolTouchesNothing : Obligations.UnrecognisedProtocolTouchesNothing := by
  intro s q i hserve hr
  obtain ⟨hl, hf, ha, hw, hi, req, hp, ht, hd⟩ := hserve
  obtain ⟨d, hacquire, -⟩ := step_acquire hf hl ha hp ht hd hi
  have hanswer := State.Alone.check_to_unsupported
    (s := { s with guard := .held, owner := q, d := d, polls := 0, fsm := .check, agenda := [], cur := q })
    ⟨hl, rfl, hw, rfl⟩ rfl hr
  exact ⟨_, (runSteps_step hacquire 2).trans hanswer, ⟨rfl, rfl, tableFind_erase_self .., tableFind_put_self ..⟩,
    ⟨rfl, rfl, rfl, rfl, rfl, rfl, rfl, rfl⟩, rfl⟩

/-! ### The interrupt registers (`60_exceptions.md` R193) -/

section
variable {s t : State} {i : Instr}

/-- The engine has no register write but `CTRL.MBE` and CMD. -/
theorem engineStep_interrupts_eq (d : Desc) (s : State) :
    (engineStep d s).intEn = s.intEn ∧ (engineStep d s).intPend = s.intPend := by
  by_cases hf : s.fsm = .idle
  case pos =>
    rw [engineStep_idle d hf]
    exact ⟨rfl, rfl⟩
  case neg =>
    obtain ⟨-, -, -, hen, hpend, -⟩ := (engineStep_transition d hf).config_eq
    exact ⟨hen, hpend⟩

/-- Of all instructions only INITIALIZE has a write of the interrupt registers among its effects. -/
theorem exec_interrupts_eq (hi : ∀ f p, i ≠ .init f p) (h : exec i s = .next t) :
    t.intEn = s.intEn ∧ t.intPend = s.intPend := by
  rcases exec_cases h with ⟨-, d, rfl, -⟩ | ⟨-, -, rfl⟩ | ⟨-, -, rfl⟩ | ⟨-, f, p, hinit, -⟩ | ⟨rfl, -⟩ |
    ⟨w, ov, t, r, v, n, -, -, -, rfl⟩ | ⟨w, ov, t, r, v, m, n, -, -, -, -, rfl⟩ | ⟨x, -, rfl⟩
  · exact engineStep_interrupts_eq d s
  · exact ⟨rfl, rfl⟩
  · exact ⟨rfl, rfl⟩
  · exact absurd hinit (hi f p)
  all_goals exact ⟨rfl, rfl⟩

/-- INITIALIZE clears `INT_EN` when it brings the bus up, and leaves it alone when it fails (`43_lifecycle.md` R161, R162). -/
theorem LifecycleAnswer.intEn_eq (a : LifecycleAnswer s i t) : t.intEn = 0#32 ∨ t.intEn = s.intEn := by
  cases a with
  | init => exact .inl rfl
  | _ => exact .inr rfl

end

/-- Settles O52: INITIALIZE is the only writer (`exec_interrupts_eq`), and it sets no bit. -/
theorem interruptsWrittenOnlyByInitialise : Obligations.InterruptsWrittenOnlyByInitialise :=
  fun _ _ _ h =>
    ⟨fun hi => exec_interrupts_eq hi h,
      fun f p hi => (exec_lifecycleAnswer (.inr (.inr ⟨f, p, hi⟩)) h).intEn_eq⟩

end Sys2Proof.Machine
